-- ==== Sys2Proof/Word.lean ====
section
/-! DEFINITION. The words of the block and the named operand values of its commands (spec/00_scope.md R12, R13). -/

namespace Sys2Proof

/-- A wire byte, `BYTE_W = 8` bits, unsigned (R12, R13). -/
abbrev Byte := BitVec 8

/-- A 16-bit unsigned value: a command argument or a raw count (R13, R75, R171). -/
abbrev Half := BitVec 16

/-- A device id, `DEVID_W = 16` bits; every value is legal (R12, R21). -/
abbrev DevId := BitVec 16

/-- The reporting mode a `setDataReportingMode` names (R77, R103). -/
inductive ReportingMode where
  | active
  | query
  deriving DecidableEq, Repr

/-- The power mode a `setStatus` names (R77, R107). -/
inductive SleepWork where
  | sleep
  | work
  deriving DecidableEq, Repr

/-- The host's opaque timestamp of a delivery (R35, R79). The block copies it and never computes with it, so the
tag has no operations: it only tells one timestamp from another (log 7, DESIGN CHOICE, safe). -/
structure Timestamp where
  tag : Nat
  deriving DecidableEq, Repr

end Sys2Proof
end

