-- ==== Sys2Proof/Config.lean ====
section
/-! DEFINITION. The implementation parameters of the block (spec/00_scope.md R12). A block instance fixes them; they
stand in State as data that no transaction writes, so a statement about every state covers every instance (log 1). -/

namespace Sys2Proof

/-- The range check on the working-period argument, an OPEN parameter (R12, R109, D9). -/
inductive PeriodCheck where
  /-- `NONE`: never reject. -/
  | noCheck
  /-- `BYTE`: reject a minute count above 255. -/
  | byte
  /-- `SENSOR`: reject a minute count above 30. -/
  | sensor
  deriving DecidableEq, Repr

/-- The parameters of R12 that an instance may choose. The fixed widths and lengths are constants. -/
structure Params where
  /-- `BUF_CAP`: the buffer's capacity in bytes, or unbounded (OPEN, D11). -/
  bufCap : Option Nat
  /-- `PERIOD_CHECK` (OPEN, D9). -/
  periodCheck : PeriodCheck
  /-- `MODE_CODE_ACTIVE` (D4). -/
  modeCodeActive : Byte
  /-- `MODE_CODE_QUERY` (D4). -/
  modeCodeQuery : Byte
  /-- `STATUS_CODE_SLEEP` (D5). -/
  statusCodeSleep : Byte
  /-- `STATUS_CODE_WORK` (D5). -/
  statusCodeWork : Byte
  /-- `CONTINUOUS_PERIOD` (D8). -/
  continuousPeriod : Byte
  deriving DecidableEq, Repr

/-- R12: a finite capacity is at least one inbound frame. -/
def Params.legal (p : Params) : Bool :=
  match p.bufCap with
  | none => true
  | some c => decide (10 ≤ c)

end Sys2Proof
end

