-- ==== Sys2Proof/Machine/Constants.lean ====
section
/-! DEFINITION. The fixed values of the wire protocol (spec/20_memory.md R53, spec/30_encoding.md R60, R62, R63, R70)
and the default parameters (spec/00_scope.md R12). -/

namespace Sys2Proof

/-- Head marker of every frame (R60, R70). -/
abbrev headMarker : Byte := 0xAA

/-- Tail marker of every frame (R60, R70). -/
abbrev tailMarker : Byte := 0xAB

/-- Command class of every outbound frame (R60). -/
abbrev commandClass : Byte := 0xB4

/-- Class byte of a measurement (R70). -/
abbrev measurementClass : Byte := 0xC0

/-- Class byte of an acknowledgment (R70). -/
abbrev ackClass : Byte := 0xC5

/-- The broadcast device id, reset value of the session register (R12, R21). -/
abbrev broadcast : DevId := 0xFFFF

/-- Sub-command codes (R62). -/
abbrev subReportingMode : Byte := 2
abbrev subQueryData : Byte := 4
abbrev subDeviceId : Byte := 5
abbrev subSleepWork : Byte := 6
abbrev subFirmwareVersion : Byte := 7
abbrev subWorkingPeriod : Byte := 8

/-- Operation flags (R63). -/
abbrev flagQuery : Byte := 0
abbrev flagSet : Byte := 1

/-- `ACK_SUBCMDS`: the sub-commands decoded in a `0xC5` frame (R12, R175). -/
abbrev ackSubcmds : List Byte :=
  [subReportingMode, subDeviceId, subSleepWork, subFirmwareVersion, subWorkingPeriod]

/-- Length of an inbound frame, `RX_LEN` (R12). -/
abbrev rxLen : Nat := 10

/-- The default value of every parameter (R12). The two open parameters take the defaults of D9 and D11; the codes
are the spec's, from general knowledge (GK1, GK2, GK3; log 8). -/
def defaultParams : Params where
  bufCap := none
  periodCheck := .noCheck
  modeCodeActive := 0
  modeCodeQuery := 1
  statusCodeSleep := 0
  statusCodeWork := 1
  continuousPeriod := 0

end Sys2Proof
end

