-- ==== Sys2Proof/Machine/Operands.lean ====
section
/-! DEFINITION. Operand forms and the arithmetic on bytes and 16-bit values (spec/00_scope.md R13, R14;
spec/40_checksum.md; spec/41_encoder.md R103, R107, R109). -/

namespace Sys2Proof.Machine

/-- High byte of a 16-bit value (R13). -/
def hi8 (v : Half) : Byte := v.extractLsb' 8 8

/-- Low byte of a 16-bit value (R13); also the truncation `ARG[7:0]` of R109. -/
def lo8 (v : Half) : Byte := v.extractLsb' 0 8

/-- Big-endian assembly, high byte first (R14). -/
def u16be (h l : Byte) : Half := BitVec.ofNat 16 (h.toNat * 256 + l.toNat)

/-- Little-endian assembly, low byte first (R14). -/
def u16le (l h : Byte) : Half := BitVec.ofNat 16 (l.toNat + h.toNat * 256)

/-- The additive checksum: the low 8 bits of the unbounded unsigned sum (R90). -/
def checksum (s : List Byte) : Byte :=
  BitVec.ofNat 8 (s.foldl (fun acc b => acc + b.toNat) 0)

/-- Value byte of a reporting-mode set (R103). -/
def modeCode (p : Params) : ReportingMode → Byte
  | .active => p.modeCodeActive
  | .query => p.modeCodeQuery

/-- Value byte of a sleep/work set (R107). -/
def statusCode (p : Params) : SleepWork → Byte
  | .sleep => p.statusCodeSleep
  | .work => p.statusCodeWork

/-- `arg_ok` of a `setWorkingPeriod` (R109). -/
def periodOk (c : PeriodCheck) (minutes : Half) : Bool :=
  match c with
  | .noCheck => true
  | .byte => decide (minutes.toNat ≤ 255)
  | .sensor => decide (minutes.toNat ≤ 30)

end Sys2Proof.Machine
end

