-- ==== Sys2Proof/Machine/Ports.lean ====
section
/-! DEFINITION. What the ports of the block carry (spec/10_state.md R31, R32; spec/60_exceptions.md R211): the raw
inputs of a transaction, and its event and status outputs. -/

namespace Sys2Proof

/-- One transaction as the ports carry it, before decoding (R31). -/
inductive Transaction where
  /-- `CMD_IN`: one 40-bit command word (R75). -/
  | cmd (W : BitVec 40)
  /-- `RX_IN`: a chunk of any length, with the host's timestamp (R79). -/
  | deliver (chunk : List Byte) (now : Timestamp)
  /-- `CTRL_IN`: a one-bit control code (R80). -/
  | ctrl (code : BitVec 1)
  deriving DecidableEq, Repr

namespace Machine

/-- An event on `EV_OUT` (R32). -/
inductive Event where
  /-- Both raw counts and the capture timestamp (R173). -/
  | meas (pm25Raw pm10Raw : Half) (t : Timestamp)
  /-- The echoed sub-command, its three data bytes as received, the originating id (R176, R177). -/
  | ack (sub d3 d4 d5 : Byte) (devid : DevId) (t : Timestamp)
  /-- The unrecognised class byte and the current session id (R179). -/
  | unknownClass (cls : Byte) (devid : DevId) (t : Timestamp)
  deriving DecidableEq, Repr

/-- What the Response Interpreter reports (R170, R211). -/
inductive RxResult where
  | meas
  | ack
  | ackDropped
  | unknownClass
  deriving DecidableEq, Repr

/-- The codes of the status output (R211). -/
inductive StatusCode where
  | ok
  | short
  | badChecksum
  | badTail
  | badOp
  | badArg
  | bufOverflow
  deriving DecidableEq, Repr

/-- One status record on `ST_OUT` (R211). -/
structure Status where
  code : StatusCode
  /-- Bytes discarded by resynchronisation (R213). -/
  d : Nat
  /-- The interpreter's result, of a validated delivery only. -/
  r : Option RxResult
  deriving DecidableEq, Repr

/-- The ten bytes of an inbound frame, by role (R70). -/
structure RxFrame where
  head : Byte
  cls : Byte
  d2 : Byte
  d3 : Byte
  d4 : Byte
  d5 : Byte
  d6 : Byte
  d7 : Byte
  ck : Byte
  tail : Byte
  deriving DecidableEq, Repr

end Machine

end Sys2Proof
end

