-- ==== Sys2Proof/Syntax.lean ====
section
/-! DEFINITION. The transactions of the block: one constructor per row of spec/opcode_table.json. Operands are the
fields the row's rule reads; ignored bits are no operands (spec/30_encoding.md R75, R77). `dev?` is the optional
target id of R101: `none` is `DP = 0`. -/

namespace Sys2Proof

inductive Instr where
  /-- OP 0x0 (R103). -/
  | setDataReportingMode (mode : ReportingMode) (dev? : Option DevId)
  /-- OP 0x1 (R104). -/
  | getDataReportingMode (dev? : Option DevId)
  /-- OP 0x2 (R105). -/
  | queryData (dev? : Option DevId)
  /-- OP 0x3 (R106). -/
  | setDeviceId (newId : DevId) (dev? : Option DevId)
  /-- OP 0x4 (R107). -/
  | setStatus (mode : SleepWork) (dev? : Option DevId)
  /-- OP 0x5 (R108). -/
  | getStatus (dev? : Option DevId)
  /-- OP 0x6 (R109). -/
  | setWorkingPeriod (minutes : Half) (dev? : Option DevId)
  /-- OP 0x7 (R110). -/
  | getWorkingPeriod (dev? : Option DevId)
  /-- OP 0x8 (R111). -/
  | checkFirmwareVersion (dev? : Option DevId)
  /-- OP 0x9 (R112). -/
  | forceActiveMode (dev? : Option DevId)
  /-- OP 0xA (R113). -/
  | forceQueryMode (dev? : Option DevId)
  /-- OP 0xB (R114). -/
  | forceContinuousWorkingPeriod (dev? : Option DevId)
  /-- OP 0xC, reserved: DP, ARG and DEV have no effect (R115). -/
  | reservedOpC
  /-- OP 0xD, reserved (R115). -/
  | reservedOpD
  /-- OP 0xE, reserved (R115). -/
  | reservedOpE
  /-- OP 0xF, reserved (R115). -/
  | reservedOpF
  /-- DELIVER of a chunk (R147). -/
  | deliver (chunk : List Byte) (now : Timestamp)
  /-- CTRL_IN code 0 (R200). -/
  | clearBuffer
  /-- CTRL_IN code 1 (R240). -/
  | reset
  /-- A delivered class `0xC0` frame (R71, R171). `ck` is frame byte 8. -/
  | rxMeasurement (pm25 pm10 : Half) (id : DevId) (ck : Byte) (now : Timestamp)
  /-- A delivered class `0xC5` frame of sub-command 2 (R72, R176). -/
  | rxAckReportingMode (d3 d4 d5 : Byte) (id : DevId) (ck : Byte) (now : Timestamp)
  /-- Sub-command 5 (R176). -/
  | rxAckDeviceId (d3 d4 d5 : Byte) (id : DevId) (ck : Byte) (now : Timestamp)
  /-- Sub-command 6 (R176). -/
  | rxAckSleepWork (d3 d4 d5 : Byte) (id : DevId) (ck : Byte) (now : Timestamp)
  /-- Sub-command 7 (R176). -/
  | rxAckFirmwareVersion (d3 d4 d5 : Byte) (id : DevId) (ck : Byte) (now : Timestamp)
  /-- Sub-command 8 (R176). -/
  | rxAckWorkingPeriod (d3 d4 d5 : Byte) (id : DevId) (ck : Byte) (now : Timestamp)
  /-- A class `0xC5` frame of any other sub-command `sub` (R178). -/
  | rxAckUnrecognised (sub d3 d4 d5 : Byte) (id : DevId) (ck : Byte) (now : Timestamp)
  /-- A frame of any class `cls` other than `0xC0` and `0xC5` (R179). -/
  | rxUnknownClass (cls d2 d3 d4 d5 d6 d7 : Byte) (ck : Byte) (now : Timestamp)
  deriving DecidableEq, Repr

end Sys2Proof
end

