-- ==== Sys2Proof/WellFormed.lean ====
section
/-! DEFINITION. When a term of `Instr` is the canonical name of a transaction (spec/30_encoding.md R70, R81). Whether
a delivered frame is VALID (its checksum and tail, R73) is no matter of form: it decides the outcome of the delivery. -/

namespace Sys2Proof

/-- The chunk is exactly one frame-shaped run: ten bytes, head marker first, tail marker last (R70). Such a chunk is
written as its `rx` row, not as a plain `deliver` (log 4). -/
def frameShaped : List Byte → Bool
  | [h, _, _, _, _, _, _, _, _, t] => h == headMarker && t == tailMarker
  | _ => false

/-- The form checks, one per constructor that has one. -/
def Instr.wf : Instr → Bool
  | .setDataReportingMode _ _ => true
  | .getDataReportingMode _ => true
  | .queryData _ => true
  | .setDeviceId _ _ => true
  | .setStatus _ _ => true
  | .getStatus _ => true
  | .setWorkingPeriod _ _ => true
  | .getWorkingPeriod _ => true
  | .checkFirmwareVersion _ => true
  | .forceActiveMode _ => true
  | .forceQueryMode _ => true
  | .forceContinuousWorkingPeriod _ => true
  | .reservedOpC => true
  | .reservedOpD => true
  | .reservedOpE => true
  | .reservedOpF => true
  | .deliver chunk _ => !frameShaped chunk
  | .clearBuffer => true
  | .reset => true
  | .rxMeasurement _ _ _ _ _ => true
  | .rxAckReportingMode _ _ _ _ _ _ => true
  | .rxAckDeviceId _ _ _ _ _ _ => true
  | .rxAckSleepWork _ _ _ _ _ _ => true
  | .rxAckFirmwareVersion _ _ _ _ _ _ => true
  | .rxAckWorkingPeriod _ _ _ _ _ _ => true
  | .rxAckUnrecognised sub _ _ _ _ _ _ => !(ackSubcmds.contains sub)
  | .rxUnknownClass cls _ _ _ _ _ _ _ _ => !(cls == measurementClass) && !(cls == ackClass)

end Sys2Proof
end

