-- ==== Sys2Proof/Decode.lean ====
section
/-! DEFINITION. Decoding of the host's transactions and of inbound frames, and the encoder back
(spec/30_encoding.md R68, R70–R72, R75–R80; spec/opcode_table.json). -/

namespace Sys2Proof

open Sys2Proof.Machine

/-! ## The command word (R75) -/

/-- `OP = W[39:36]`. -/
def opField (W : BitVec 40) : BitVec 4 := W.extractLsb' 36 4

/-- `DP = W[35]`. -/
def dpField (W : BitVec 40) : Bool := W.getLsbD 35

/-- `ARG = W[31:16]`. -/
def argField (W : BitVec 40) : Half := W.extractLsb' 16 16

/-- `DEV = W[15:0]`. -/
def devField (W : BitVec 40) : DevId := W.extractLsb' 0 16

/-- The optional target: `DEV` when `DP = 1`, ignored otherwise (R75, R78, R101). -/
def devOperand (W : BitVec 40) : Option DevId := if dpField W then some (devField W) else none

/-- The selector `ARG[0]` (R77). -/
def selField (W : BitVec 40) : Bool := (argField W).getLsbD 0

/-- Selector 0 is active, 1 is query (R77, R103). -/
def modeOperand (W : BitVec 40) : ReportingMode := if selField W then .query else .active

/-- Selector 0 is sleep, 1 is work (R77, R107). -/
def powerOperand (W : BitVec 40) : SleepWork := if selField W then .work else .sleep

/-- Every command word decodes: the sixteen values of `OP` in the order of R68 and R76. -/
def decodeCmd (W : BitVec 40) : Instr :=
  match (opField W).toNat with
  | 0 => .setDataReportingMode (modeOperand W) (devOperand W)
  | 1 => .getDataReportingMode (devOperand W)
  | 2 => .queryData (devOperand W)
  | 3 => .setDeviceId (argField W) (devOperand W)
  | 4 => .setStatus (powerOperand W) (devOperand W)
  | 5 => .getStatus (devOperand W)
  | 6 => .setWorkingPeriod (argField W) (devOperand W)
  | 7 => .getWorkingPeriod (devOperand W)
  | 8 => .checkFirmwareVersion (devOperand W)
  | 9 => .forceActiveMode (devOperand W)
  | 10 => .forceQueryMode (devOperand W)
  | 11 => .forceContinuousWorkingPeriod (devOperand W)
  | 12 => .reservedOpC
  | 13 => .reservedOpD
  | 14 => .reservedOpE
  | _ => .reservedOpF

/-! ## The inbound frame (R70) -/

/-- Why a byte sequence is none of the `rx` rows. -/
inductive FrameReject where
  /-- Not ten bytes. -/
  | wrongLength
  /-- Byte 0 is not the head marker. -/
  | noHead
  /-- Byte 9 is not the tail marker. -/
  | noTail
  deriving DecidableEq, Repr

/-- The row of a frame by its class byte and, in class `0xC5`, its sub-command (R70–R72, R175, opcode table). -/
def classifyFrame (cls d2 d3 d4 d5 d6 d7 ck : Byte) (now : Timestamp) : Instr :=
  if cls = measurementClass then .rxMeasurement (u16le d2 d3) (u16le d4 d5) (u16le d6 d7) ck now
  else if cls = ackClass then
    if d2 = subReportingMode then .rxAckReportingMode d3 d4 d5 (u16le d6 d7) ck now
    else if d2 = subDeviceId then .rxAckDeviceId d3 d4 d5 (u16le d6 d7) ck now
    else if d2 = subSleepWork then .rxAckSleepWork d3 d4 d5 (u16le d6 d7) ck now
    else if d2 = subFirmwareVersion then .rxAckFirmwareVersion d3 d4 d5 (u16le d6 d7) ck now
    else if d2 = subWorkingPeriod then .rxAckWorkingPeriod d3 d4 d5 (u16le d6 d7) ck now
    else .rxAckUnrecognised d2 d3 d4 d5 (u16le d6 d7) ck now
  else .rxUnknownClass cls d2 d3 d4 d5 d6 d7 ck now

/-- Decode a byte sequence as one inbound frame by the opcode table's match and mask, or reject it by name. The
checksum byte is an operand: a wrong one makes the frame invalid (R73), not another row. -/
def decodeFrame (bytes : List Byte) (now : Timestamp) : Except FrameReject Instr :=
  match bytes with
  | [h, cls, d2, d3, d4, d5, d6, d7, ck, t] =>
    if h ≠ headMarker then .error .noHead
    else if t ≠ tailMarker then .error .noTail
    else .ok (classifyFrame cls d2 d3 d4 d5 d6 d7 ck now)
  | _ => .error .wrongLength

/-! ## Control codes and whole transactions -/

/-- `CTRL_IN` code 0 clears the buffer, 1 resets (R80). -/
def decodeCtrl (code : BitVec 1) : Instr := if code = 0 then .clearBuffer else .reset

/-- A delivery that is exactly one frame is its `rx` row; every other chunk is the `deliver` row (log 4). -/
def decodeDelivery (chunk : List Byte) (now : Timestamp) : Instr :=
  match decodeFrame chunk now with
  | .ok i => i
  | .error _ => .deliver chunk now

/-- Decoding of a transaction: total, since every word of every port has a meaning (R11, R76, R79, R80). -/
def decode : Transaction → Instr
  | .cmd W => decodeCmd W
  | .deliver chunk now => decodeDelivery chunk now
  | .ctrl code => decodeCtrl code

/-! ## The encoder -/

/-- The command word of R75 with `RSV = 0` and, for an absent target, `DP = 0, DEV = 0` (R83). -/
def cmdWord (op : BitVec 4) (arg : Half) (dev? : Option DevId) : BitVec 40 :=
  op ++ BitVec.ofBool dev?.isSome ++ 0#3 ++ arg ++ dev?.getD 0

/-- The argument word of a selector (R77). -/
def selArg (sel : Bool) : Half := if sel then 1 else 0

/-- The bytes of a measurement frame (R70, R71): every field low byte first. -/
def measurementBytes (pm25 pm10 : Half) (id : DevId) (ck : Byte) : List Byte :=
  [headMarker, measurementClass, lo8 pm25, hi8 pm25, lo8 pm10, hi8 pm10, lo8 id, hi8 id, ck, tailMarker]

/-- The bytes of an acknowledgment frame (R70, R72). -/
def ackBytes (sub d3 d4 d5 : Byte) (id : DevId) (ck : Byte) : List Byte :=
  [headMarker, ackClass, sub, d3, d4, d5, lo8 id, hi8 id, ck, tailMarker]

/-- The bytes of a frame of another class (R70). -/
def otherClassBytes (cls d2 d3 d4 d5 d6 d7 ck : Byte) : List Byte :=
  [headMarker, cls, d2, d3, d4, d5, d6, d7, ck, tailMarker]

/-- The transaction an instruction stands for, from the encoding tables R68, R70–R72, R75, R79, R80. -/
def encode : Instr → Transaction
  | .setDataReportingMode mode dev? => .cmd (cmdWord 0x0 (selArg (mode == .query)) dev?)
  | .getDataReportingMode dev? => .cmd (cmdWord 0x1 0 dev?)
  | .queryData dev? => .cmd (cmdWord 0x2 0 dev?)
  | .setDeviceId newId dev? => .cmd (cmdWord 0x3 newId dev?)
  | .setStatus mode dev? => .cmd (cmdWord 0x4 (selArg (mode == .work)) dev?)
  | .getStatus dev? => .cmd (cmdWord 0x5 0 dev?)
  | .setWorkingPeriod minutes dev? => .cmd (cmdWord 0x6 minutes dev?)
  | .getWorkingPeriod dev? => .cmd (cmdWord 0x7 0 dev?)
  | .checkFirmwareVersion dev? => .cmd (cmdWord 0x8 0 dev?)
  | .forceActiveMode dev? => .cmd (cmdWord 0x9 0 dev?)
  | .forceQueryMode dev? => .cmd (cmdWord 0xA 0 dev?)
  | .forceContinuousWorkingPeriod dev? => .cmd (cmdWord 0xB 0 dev?)
  | .reservedOpC => .cmd (cmdWord 0xC 0 none)
  | .reservedOpD => .cmd (cmdWord 0xD 0 none)
  | .reservedOpE => .cmd (cmdWord 0xE 0 none)
  | .reservedOpF => .cmd (cmdWord 0xF 0 none)
  | .deliver chunk now => .deliver chunk now
  | .clearBuffer => .ctrl 0
  | .reset => .ctrl 1
  | .rxMeasurement pm25 pm10 id ck now => .deliver (measurementBytes pm25 pm10 id ck) now
  | .rxAckReportingMode d3 d4 d5 id ck now => .deliver (ackBytes subReportingMode d3 d4 d5 id ck) now
  | .rxAckDeviceId d3 d4 d5 id ck now => .deliver (ackBytes subDeviceId d3 d4 d5 id ck) now
  | .rxAckSleepWork d3 d4 d5 id ck now => .deliver (ackBytes subSleepWork d3 d4 d5 id ck) now
  | .rxAckFirmwareVersion d3 d4 d5 id ck now => .deliver (ackBytes subFirmwareVersion d3 d4 d5 id ck) now
  | .rxAckWorkingPeriod d3 d4 d5 id ck now => .deliver (ackBytes subWorkingPeriod d3 d4 d5 id ck) now
  | .rxAckUnrecognised sub d3 d4 d5 id ck now => .deliver (ackBytes sub d3 d4 d5 id ck) now
  | .rxUnknownClass cls d2 d3 d4 d5 d6 d7 ck now => .deliver (otherClassBytes cls d2 d3 d4 d5 d6 d7 ck) now

/-! ## Words as the opcode table numbers them -/

/-- The `n` bytes of `w`, most significant first: the table's numbering of an inbound frame puts `f[0]` highest. -/
def bytesMsbFirst : Nat → Nat → List Byte
  | 0, _ => []
  | n + 1, w => BitVec.ofNat 8 (w / 256 ^ n) :: bytesMsbFirst n w

/-- The transaction a table word stands for, by the width of its row: 40 bits a command word; 1 to 8 bits the one-bit
control code (bit 0 is all the port carries, mask `0x1`); 80 bits a ten-byte frame delivered whole, `f[0]` most
significant; 0 bits the `deliver` row, which the table gives no bits (an empty chunk). The timestamp, which no
row gives bits, is 0 (log 10). Other widths are no row's. -/
def layoutTableWord (nbits w : Nat) : Option Transaction :=
  if nbits = 40 then some (.cmd (BitVec.ofNat 40 w))
  else if nbits = 80 then some (.deliver (bytesMsbFirst 10 w) ⟨0⟩)
  else if nbits = 0 then some (.deliver [] ⟨0⟩)
  else if nbits ≤ 8 then some (.ctrl (BitVec.ofNat 1 w))
  else none

/-- The instruction the decoder reads from a table word; none for a width of no row. -/
def decodeTableWord (nbits w : Nat) : Option Instr := (layoutTableWord nbits w).map decode

end Sys2Proof
end

