-- ==== Sys2Proof/Machine/Flags.lean ====
section
/-! DEFINITION. The status output, the block's only condition codes (spec/60_exceptions.md R211–R218): the values of
the codes, the records of each outcome, and the priority of the framing errors. -/

namespace Sys2Proof.Machine

/-- Numeric value of a status code (R211). -/
def StatusCode.value : StatusCode → Nat
  | .ok => 0
  | .short => 1
  | .badChecksum => 2
  | .badTail => 3
  | .badOp => 4
  | .badArg => 5
  | .bufOverflow => 6

/-- The record of any transaction that is no validated delivery: `r` is absent (R211). -/
def statusOf (code : StatusCode) (d : Nat) : Status := ⟨code, d, none⟩

/-- The record of a validated delivery (R146, R211). -/
def statusValidated (d : Nat) (r : RxResult) : Status := ⟨.ok, d, some r⟩

/-- The six data bytes, `f[2..7]` (R14, R70). -/
def RxFrame.data (f : RxFrame) : List Byte := [f.d2, f.d3, f.d4, f.d5, f.d6, f.d7]

/-- Outcome of the validation of step 4. -/
inductive FrameCheck where
  | badChecksum
  | badTail
  | valid
  deriving DecidableEq, Repr

/-- Step 4 (R144, R145, R218): the checksum test comes before the tail test; no other byte is checked. -/
def frameCheck (f : RxFrame) : FrameCheck :=
  if checksum f.data ≠ f.ck then .badChecksum
  else if f.tail ≠ tailMarker then .badTail
  else .valid

end Sys2Proof.Machine
end

