-- ==== Sys2Proof/Machine/State.lean ====
section
/-! DEFINITION. The state of the block (spec/10_state.md R20–R35), the ways a step can stop, and the state after reset
(R34, R241). Plain data. -/

namespace Sys2Proof.Machine

/-- The block's two registers, the outputs of the last transaction, and two fields of the model's own: the instance's
parameters (log 1) and the host's transactions not yet issued (log 2). -/
structure State where
  /-- Parameters of this block instance; no transaction writes them (R12, R28; log 1). -/
  params : Params
  /-- Session device id (R21). -/
  devid : DevId
  /-- Accumulation buffer, oldest byte first (R24). -/
  buf : List Byte
  /-- The host's sequence of transactions, next one first (R10, R27; log 2). -/
  pending : List Transaction
  /-- `TX_OUT` of the last transaction (R31, R33; log 3). -/
  tx : Option (List Byte)
  /-- `EV_OUT` of the last transaction (R31, R32, R33; log 3). -/
  ev : Option Event
  /-- `ST_OUT` of the last transaction; none before the first (R31, R211, R241; log 3). -/
  st : Option Status
  deriving DecidableEq, Repr

/-- The one fault of the block (R11, R214). -/
inductive Fault where
  /-- `BUF_OVERFLOW{held, offered}`: raised by a delivery (`deliver` and the eight `rx` rows) whose chunk would exceed a
  finite `BUF_CAP`. Safe: the spec leaves unspecified what follows it, and the model stops (log 6). -/
  | bufOverflow (held offered : Nat)
  deriving DecidableEq, Repr

/-- Why there is no meaning to run. -/
inductive Refusal where
  /-- Raised by an arm of `exec` whose instruction has no meaning yet; no arm is left so. Safe: nothing is claimed. -/
  | notModelled (mnemonic : String)
  /-- Raised by `step` when the host has issued no transaction: the block takes no step then (R10). Safe: the model
  stops where the block waits (log 2). -/
  | noTransaction
  deriving DecidableEq, Repr

/-- After reset and at power-up: the session id is broadcast, the buffer is empty, nothing is pending on any output
(R34, R241); the parameters are the spec's defaults (R12; log 8) and the host has issued nothing (log 2). -/
def State.reset : State where
  params := defaultParams
  devid := broadcast
  buf := []
  pending := []
  tx := none
  ev := none
  st := none

end Sys2Proof.Machine
end

