-- ==== Sys2Proof/Machine/Ops.lean ====
section
/-! DEFINITION. The named operations over the block's registers, its buffer and its ports (spec/20_memory.md R41–R45;
spec/41_encoder.md R100, R101; spec/60_exceptions.md R214; spec/10_state.md R31). The block has no trap: its one
abnormal outcome is `raiseOverflow`, and there is no return from it (R210, R219). -/

namespace Sys2Proof.Machine

/-- What an instruction answers. -/
abbrev Result := Host.Outcome State Fault Refusal

/-! ## Registers and ports -/

/-- `devid <- v` (R15). -/
def State.withDevid (s : State) (v : DevId) : State := { s with devid := v }

/-- `buf <- b` (R15). -/
def State.withBuf (s : State) (b : List Byte) : State := { s with buf := b }

/-- The host's sequence becomes `ts` (log 2). -/
def State.withPending (s : State) (ts : List Transaction) : State := { s with pending := ts }

/-- `emit_tx`, `emit_ev` and `set_status` of one transaction: all three ports take this transaction's outputs, and
nothing of the one before is held (R28, R31, R33; log 3). -/
def State.finish (s : State) (tx : Option (List Byte)) (ev : Option Event) (st : Status) : State :=
  { s with tx := tx, ev := ev, st := some st }

/-- The target of a command: its explicit id, else the session's (R101). -/
def State.target (s : State) (dev? : Option DevId) : DevId := dev?.getD s.devid

/-- The next transaction the host has issued and the state without it (log 2). -/
def State.fetch (s : State) : Option (Transaction × State) :=
  match s.pending with
  | [] => none
  | t :: rest => some (t, s.withPending rest)

/-! ## The buffer -/

/-- `append(chunk)` (R42). -/
def appendChunk (buf chunk : List Byte) : List Byte := buf ++ chunk

/-- The least index of a head marker, or the length when there is none: the count `d` that resynchronisation removes
(R43, R142, R213). It is 0 on an empty or aligned buffer. -/
def syncCount (buf : List Byte) : Nat := buf.findIdx (· == headMarker)

/-- `resync()` (R43). -/
def resync (buf : List Byte) : List Byte := buf.drop (syncCount buf)

/-- `drop(10, buf)` after a failed validation (R44). -/
def dropFrame (buf : List Byte) : List Byte := buf.drop rxLen

/-- `MemRead(0, 10)`, defined when at least ten bytes are held (R15, R41). -/
def memReadFrame : List Byte → Option RxFrame
  | f0 :: f1 :: f2 :: f3 :: f4 :: f5 :: f6 :: f7 :: f8 :: f9 :: _ => some ⟨f0, f1, f2, f3, f4, f5, f6, f7, f8, f9⟩
  | _ => none

/-- The buffer has no address space: bytes are identified by index, so its form is canonical as it stands, and only
its length is bounded (R24, R40; log 5). -/
def Memory.wf (p : Params) (buf : List Byte) : Bool :=
  match p.bufCap with
  | none => true
  | some c => decide (buf.length ≤ c)

/-- Whether appending `chunk` would exceed a finite capacity (R141, R214). -/
def overflows (s : State) (chunk : List Byte) : Bool :=
  match s.params.bufCap with
  | none => false
  | some c => decide (c < s.buf.length + chunk.length)

/-- `raise Fault(BUF_OVERFLOW{held, offered})`: no state is written and nothing is emitted (R214). -/
def raiseOverflow (s : State) (chunk : List Byte) : Result :=
  .fault (.bufOverflow s.buf.length chunk.length)

/-- The record R211 lists for the fault. Resynchronisation has not run, so `d` is 0 (log 6). -/
def Fault.status : Fault → Status
  | .bufOverflow _ _ => statusOf .bufOverflow 0

/-! ## The outbound frame -/

/-- The 15 payload bytes: sub-command, flag, value, the new-id slot at 6 and 7, the target high byte first; every other
byte is zero (R63–R68). -/
def payload (sub flag value new6 new7 : Byte) (target : DevId) : List Byte :=
  [sub, flag, value, 0, 0, 0, new6, new7, 0, 0, 0, 0, 0, hi8 target, lo8 target]

/-- The 19-byte frame around a payload (R60, R92, R100). -/
def txFrame (p : List Byte) : List Byte :=
  [headMarker, commandClass] ++ p ++ [checksum p, tailMarker]

/-- The end of an accepted command: its frame on `TX_OUT`, no event, status `OK`, no register written
(R100, R102, R116). -/
def emitCommand (sub flag value new6 new7 : Byte) (dev? : Option DevId) (s : State) : Result :=
  .next (s.finish (some (txFrame (payload sub flag value new6 new7 (s.target dev?)))) none (statusOf .ok 0))

/-- The end of a command that is turned away: a status, no frame, no event (R102, R109, R115). -/
def rejectCommand (code : StatusCode) (s : State) : Result :=
  .next (s.finish none none (statusOf code 0))

end Sys2Proof.Machine
end

