-- ==== Sys2Proof/Machine/Control.lean ====
section
/-! DEFINITION. The control transactions (spec/44_control.md R200; spec/70_reset_and_hazards.md R240). -/

namespace Sys2Proof.Machine

/-- CLEAR_BUF: the buffer empties, the session id stays (R200). -/
def execClearBuffer (s : State) : Result :=
  .next ((s.withBuf []).finish none none (statusOf .ok 0))

/-- RESET: both registers take their reset values (R240). -/
def execReset (s : State) : Result :=
  .next (((s.withDevid broadcast).withBuf []).finish none none (statusOf .ok 0))

end Sys2Proof.Machine
end

