-- ==== Sys2Proof/Machine/Encoder.lean ====
section
/-! DEFINITION. The Frame Encoder: the meaning of each `CMD` operation (spec/41_encoder.md). -/

namespace Sys2Proof.Machine

/-- R103. -/
def execSetDataReportingMode (mode : ReportingMode) (dev? : Option DevId) (s : State) : Result :=
  emitCommand subReportingMode flagSet (modeCode s.params mode) 0 0 dev? s

/-- R104. -/
def execGetDataReportingMode (dev? : Option DevId) (s : State) : Result :=
  emitCommand subReportingMode flagQuery 0 0 0 dev? s

/-- R105. -/
def execQueryData (dev? : Option DevId) (s : State) : Result :=
  emitCommand subQueryData flagQuery 0 0 0 dev? s

/-- R106: the new id goes into payload bytes 6 and 7; `devid` keeps its value. -/
def execSetDeviceId (newId : DevId) (dev? : Option DevId) (s : State) : Result :=
  emitCommand subDeviceId flagQuery 0 (hi8 newId) (lo8 newId) dev? s

/-- R107. -/
def execSetStatus (mode : SleepWork) (dev? : Option DevId) (s : State) : Result :=
  emitCommand subSleepWork flagSet (statusCode s.params mode) 0 0 dev? s

/-- R108. -/
def execGetStatus (dev? : Option DevId) (s : State) : Result :=
  emitCommand subSleepWork flagQuery 0 0 0 dev? s

/-- R109: the argument is checked against `PERIOD_CHECK` and its low byte is sent. -/
def execSetWorkingPeriod (minutes : Half) (dev? : Option DevId) (s : State) : Result :=
  if periodOk s.params.periodCheck minutes then emitCommand subWorkingPeriod flagSet (lo8 minutes) 0 0 dev? s
  else rejectCommand .badArg s

/-- R110. -/
def execGetWorkingPeriod (dev? : Option DevId) (s : State) : Result :=
  emitCommand subWorkingPeriod flagQuery 0 0 0 dev? s

/-- R111. -/
def execCheckFirmwareVersion (dev? : Option DevId) (s : State) : Result :=
  emitCommand subFirmwareVersion flagQuery 0 0 0 dev? s

/-- R112. -/
def execForceActiveMode (dev? : Option DevId) (s : State) : Result :=
  emitCommand subReportingMode flagSet (modeCode s.params .active) 0 0 dev? s

/-- R113. -/
def execForceQueryMode (dev? : Option DevId) (s : State) : Result :=
  emitCommand subReportingMode flagSet (modeCode s.params .query) 0 0 dev? s

/-- R114: never checked against `PERIOD_CHECK`. -/
def execForceContinuousWorkingPeriod (dev? : Option DevId) (s : State) : Result :=
  emitCommand subWorkingPeriod flagSet s.params.continuousPeriod 0 0 dev? s

/-- R115. -/
def execReservedOpC (s : State) : Result := rejectCommand .badOp s

/-- R115. -/
def execReservedOpD (s : State) : Result := rejectCommand .badOp s

/-- R115. -/
def execReservedOpE (s : State) : Result := rejectCommand .badOp s

/-- R115. -/
def execReservedOpF (s : State) : Result := rejectCommand .badOp s

end Sys2Proof.Machine
end

