-- ==== Sys2Proof/Machine/Interpreter.lean ====
section
/-! DEFINITION. The Response Interpreter: what a validated frame does inside its delivery (spec/43_interpreter.md).
`d` is the resynchronisation count of that delivery, which its status record carries. -/

namespace Sys2Proof.Machine

/-- The device id of a reply, low byte first (R47, R172, R174). -/
def RxFrame.id (f : RxFrame) : DevId := u16le f.d6 f.d7

/-- Class `0xC0` (R171–R173). -/
def interpretMeasurement (f : RxFrame) (now : Timestamp) (d : Nat) (s : State) : State :=
  (s.withDevid f.id).finish none (some (.meas (u16le f.d2 f.d3) (u16le f.d4 f.d5) now)) (statusValidated d .meas)

/-- Class `0xC5`: the id is written whatever the sub-command, and a recognised one makes an event (R174–R178). -/
def interpretAck (f : RxFrame) (now : Timestamp) (d : Nat) (s : State) : State :=
  if ackSubcmds.contains f.d2 then
    (s.withDevid f.id).finish none (some (.ack f.d2 f.d3 f.d4 f.d5 f.id now)) (statusValidated d .ack)
  else (s.withDevid f.id).finish none none (statusValidated d .ackDropped)

/-- Any other class: the event carries the unchanged session id (R179). -/
def interpretUnknownClass (f : RxFrame) (now : Timestamp) (d : Nat) (s : State) : State :=
  s.finish none (some (.unknownClass f.cls s.devid now)) (statusValidated d .unknownClass)

/-- Dispatch on the class byte (R170). -/
def interpret (f : RxFrame) (now : Timestamp) (d : Nat) (s : State) : State :=
  if f.cls = measurementClass then interpretMeasurement f now d s
  else if f.cls = ackClass then interpretAck f now d s
  else interpretUnknownClass f now d s

end Sys2Proof.Machine
end

