-- ==== Sys2Proof/Machine/Framer.lean ====
section
/-! DEFINITION. The Stream Framer: the `DELIVER` transaction (spec/42_framer.md R140–R147). -/

namespace Sys2Proof.Machine

/-- Steps 3 to 5 on a resynchronised buffer, `d` bytes having been removed (R143–R146). -/
def frameBuffer (b : List Byte) (now : Timestamp) (d : Nat) (s : State) : State :=
  match memReadFrame b with
  | none => (s.withBuf b).finish none none (statusOf .short d)
  | some f =>
    match frameCheck f with
    | .badChecksum => (s.withBuf (dropFrame b)).finish none none (statusOf .badChecksum d)
    | .badTail => (s.withBuf (dropFrame b)).finish none none (statusOf .badTail d)
    | .valid => interpret f now d (s.withBuf [])

/-- The whole transaction (R147): the capacity is checked first, then the chunk is appended, the buffer
resynchronised, and steps 3 to 5 run once (R148). -/
def deliverChunk (chunk : List Byte) (now : Timestamp) (s : State) : Result :=
  if overflows s chunk then raiseOverflow s chunk
  else
    .next (frameBuffer (resync (appendChunk s.buf chunk)) now (syncCount (appendChunk s.buf chunk)) s)

/-- DELIVER (R140, R147). -/
def execDeliver (chunk : List Byte) (now : Timestamp) (s : State) : Result := deliverChunk chunk now s

end Sys2Proof.Machine
end

