-- ==== Sys2Proof/Machine/Frames.lean ====
section
/-! DEFINITION. The eight inbound-frame rows of the opcode table as transactions: each is the `DELIVER` of a chunk that
is exactly that frame (spec/30_encoding.md R70–R72; log 4). From an empty buffer a valid frame reaches the Response
Interpreter (R152); from another buffer the framer's rules decide (R154). -/

namespace Sys2Proof.Machine

/-- R171–R173. -/
def execRxMeasurement (pm25 pm10 : Half) (id : DevId) (ck : Byte) (now : Timestamp) (s : State) : Result :=
  deliverChunk (measurementBytes pm25 pm10 id ck) now s

/-- R174–R176, sub-command 2. -/
def execRxAckReportingMode (d3 d4 d5 : Byte) (id : DevId) (ck : Byte) (now : Timestamp) (s : State) : Result :=
  deliverChunk (ackBytes subReportingMode d3 d4 d5 id ck) now s

/-- R174–R176, sub-command 5. -/
def execRxAckDeviceId (d3 d4 d5 : Byte) (id : DevId) (ck : Byte) (now : Timestamp) (s : State) : Result :=
  deliverChunk (ackBytes subDeviceId d3 d4 d5 id ck) now s

/-- R174–R176, sub-command 6. -/
def execRxAckSleepWork (d3 d4 d5 : Byte) (id : DevId) (ck : Byte) (now : Timestamp) (s : State) : Result :=
  deliverChunk (ackBytes subSleepWork d3 d4 d5 id ck) now s

/-- R174–R177, sub-command 7. -/
def execRxAckFirmwareVersion (d3 d4 d5 : Byte) (id : DevId) (ck : Byte) (now : Timestamp) (s : State) : Result :=
  deliverChunk (ackBytes subFirmwareVersion d3 d4 d5 id ck) now s

/-- R174–R176, sub-command 8. -/
def execRxAckWorkingPeriod (d3 d4 d5 : Byte) (id : DevId) (ck : Byte) (now : Timestamp) (s : State) : Result :=
  deliverChunk (ackBytes subWorkingPeriod d3 d4 d5 id ck) now s

/-- R178. -/
def execRxAckUnrecognised (sub d3 d4 d5 : Byte) (id : DevId) (ck : Byte) (now : Timestamp) (s : State) : Result :=
  deliverChunk (ackBytes sub d3 d4 d5 id ck) now s

/-- R179. -/
def execRxUnknownClass (cls d2 d3 d4 d5 d6 d7 ck : Byte) (now : Timestamp) (s : State) : Result :=
  deliverChunk (otherClassBytes cls d2 d3 d4 d5 d6 d7 ck) now s

end Sys2Proof.Machine
end

