-- ==== Sys2Proof/Machine/Dispatch.lean ====
section
/-! DEFINITION. One arm per constructor of `Instr`: the meaning of each transaction. -/

namespace Sys2Proof.Machine

def exec (i : Instr) (s : State) : Host.Outcome State Fault Refusal :=
  match i with
  -- CMD_IN (spec/41_encoder.md)
  | .setDataReportingMode mode dev => Sys2Proof.Machine.execSetDataReportingMode mode dev s
  | .getDataReportingMode dev => Sys2Proof.Machine.execGetDataReportingMode dev s
  | .queryData dev => Sys2Proof.Machine.execQueryData dev s
  | .setDeviceId newId dev => Sys2Proof.Machine.execSetDeviceId newId dev s
  | .setStatus mode dev => Sys2Proof.Machine.execSetStatus mode dev s
  | .getStatus dev => Sys2Proof.Machine.execGetStatus dev s
  | .setWorkingPeriod minutes dev => Sys2Proof.Machine.execSetWorkingPeriod minutes dev s
  | .getWorkingPeriod dev => Sys2Proof.Machine.execGetWorkingPeriod dev s
  | .checkFirmwareVersion dev => Sys2Proof.Machine.execCheckFirmwareVersion dev s
  | .forceActiveMode dev => Sys2Proof.Machine.execForceActiveMode dev s
  | .forceQueryMode dev => Sys2Proof.Machine.execForceQueryMode dev s
  | .forceContinuousWorkingPeriod dev => Sys2Proof.Machine.execForceContinuousWorkingPeriod dev s
  | .reservedOpC => Sys2Proof.Machine.execReservedOpC s
  | .reservedOpD => Sys2Proof.Machine.execReservedOpD s
  | .reservedOpE => Sys2Proof.Machine.execReservedOpE s
  | .reservedOpF => Sys2Proof.Machine.execReservedOpF s
  -- RX_IN (spec/42_framer.md)
  | .deliver chunk now => Sys2Proof.Machine.execDeliver chunk now s
  -- CTRL_IN (spec/44_control.md, spec/70_reset_and_hazards.md)
  | .clearBuffer => Sys2Proof.Machine.execClearBuffer s
  | .reset => Sys2Proof.Machine.execReset s
  -- RX_IN carrying exactly one frame (spec/43_interpreter.md)
  | .rxMeasurement pm25 pm10 id ck now => Sys2Proof.Machine.execRxMeasurement pm25 pm10 id ck now s
  | .rxAckReportingMode d3 d4 d5 id ck now => Sys2Proof.Machine.execRxAckReportingMode d3 d4 d5 id ck now s
  | .rxAckDeviceId d3 d4 d5 id ck now => Sys2Proof.Machine.execRxAckDeviceId d3 d4 d5 id ck now s
  | .rxAckSleepWork d3 d4 d5 id ck now => Sys2Proof.Machine.execRxAckSleepWork d3 d4 d5 id ck now s
  | .rxAckFirmwareVersion d3 d4 d5 id ck now => Sys2Proof.Machine.execRxAckFirmwareVersion d3 d4 d5 id ck now s
  | .rxAckWorkingPeriod d3 d4 d5 id ck now => Sys2Proof.Machine.execRxAckWorkingPeriod d3 d4 d5 id ck now s
  | .rxAckUnrecognised sub d3 d4 d5 id ck now => Sys2Proof.Machine.execRxAckUnrecognised sub d3 d4 d5 id ck now s
  | .rxUnknownClass cls d2 d3 d4 d5 d6 d7 ck now => Sys2Proof.Machine.execRxUnknownClass cls d2 d3 d4 d5 d6 d7 ck now s

end Sys2Proof.Machine
end

