-- ==== Sys2Proof/Machine/Step.lean ====
section
/-! DEFINITION. One step: the next transaction the host has issued, decoded and run to completion
(spec/00_scope.md R10, R11; spec/20_memory.md R51, R54). -/

namespace Sys2Proof.Machine

/-- Without an issued transaction there is no step (log 2). -/
def step (s : State) : Host.Outcome State Fault Refusal :=
  match s.fetch with
  | none => .refused .noTransaction
  | some (t, s') => exec (decode t) s'

/-- The state in which the host issues the table word next, before all it had issued (log 2, log 10). A width of no row
changes nothing. -/
def State.withFetchWord (s : State) (nbits w : Nat) : State :=
  match layoutTableWord nbits w with
  | some t => s.withPending (t :: s.pending)
  | none => s

end Sys2Proof.Machine
end

