-- ==== Sys2Proof/Safety.lean ====
section
/-! DEFINITION. The terms claims are stated in: the block's predicates on frames, its framer state, its invariants, the
reading of a count, and runs of deliveries. -/

namespace Sys2Proof.Machine

/-! ## Frames -/

/-- Byte `i` of a frame, zero past its end. -/
def byteAt (f : List Byte) (i : Nat) : Byte := f.getD i 0

/-- `s[i..j]`, the sub-sequence of indices `i` to `j` inclusive (R14). -/
def slice (f : List Byte) (i j : Nat) : List Byte := (f.drop i).take (j + 1 - i)

/-- `tx_valid` (R69). -/
def txValid (F : List Byte) : Prop :=
  F.length = 19 ∧ byteAt F 0 = 0xAA ∧ byteAt F 1 = 0xB4 ∧
    byteAt F 17 = checksum (slice F 2 16) ∧ byteAt F 18 = 0xAB

/-- `rx_valid` of a ten-byte frame (R73). -/
def rxValid (f : List Byte) : Prop :=
  checksum (slice f 2 7) = byteAt f 8 ∧ byteAt f 9 = 0xAB

/-- The outbound frame written out byte by byte from the tables R60 and R68. -/
def outboundFrame (p0 p1 p2 p6 p7 : Byte) (target : DevId) : List Byte :=
  [0xAA, 0xB4, p0, p1, p2, 0, 0, 0, p6, p7, 0, 0, 0, 0, 0, hi8 target, lo8 target,
    checksum [p0, p1, p2, 0, 0, 0, p6, p7, 0, 0, 0, 0, 0, hi8 target, lo8 target], 0xAB]

/-- The optional target of a command word, from its bits (R75, R101). -/
def wordTarget (W : BitVec 40) : Option DevId := if W.getLsbD 35 then some (W.extractLsb' 0 16) else none

/-! ## Deliveries -/

/-- The chunk can be appended: no finite capacity is exceeded (R141, R214). -/
def fits (s : State) (chunk : List Byte) : Prop := ∀ c, s.params.bufCap = some c → s.buf.length + chunk.length ≤ c

/-- What the pseudocode of R146 and R170 leaves after a delivery that discarded `d` bytes and validated the frame `f`. -/
def interpreted (f : List Byte) (now : Timestamp) (d : Nat) (s : State) : State :=
  let id := u16le (byteAt f 6) (byteAt f 7)
  if byteAt f 1 = 0xC0 then
    { s with
      devid := id, buf := [], tx := none
      ev := some (.meas (u16le (byteAt f 2) (byteAt f 3)) (u16le (byteAt f 4) (byteAt f 5)) now)
      st := some ⟨.ok, d, some .meas⟩ }
  else if byteAt f 1 = 0xC5 then
    if byteAt f 2 ∈ [2, 5, 6, 7, 8] then
      { s with
        devid := id, buf := [], tx := none
        ev := some (.ack (byteAt f 2) (byteAt f 3) (byteAt f 4) (byteAt f 5) id now)
        st := some ⟨.ok, d, some .ack⟩ }
    else
      { s with devid := id, buf := [], tx := none, ev := none, st := some ⟨.ok, d, some .ackDropped⟩ }
  else
    { s with
      buf := [], tx := none
      ev := some (.unknownClass (byteAt f 1) s.devid now)
      st := some ⟨.ok, d, some .unknownClass⟩ }

/-- The same event at another time. -/
def Event.at (now : Timestamp) : Event → Event
  | .meas a b _ => .meas a b now
  | .ack sub d3 d4 d5 id _ => .ack sub d3 d4 d5 id now
  | .unknownClass cls id _ => .unknownClass cls id now

/-! ## The framer's state (R26) and the buffer at rest (R29) -/

/-- The two conceptual states of the framer (R26). -/
inductive FramerState where
  | awaitingSync
  | accumulating
  deriving DecidableEq, Repr

/-- `fstate(buf)` (R26). -/
def fstate : List Byte → FramerState
  | [] => .awaitingSync
  | b :: _ => if b = 0xAA then .accumulating else .awaitingSync

/-- Empty, or led by a head marker: what holds after step 2 (R142). -/
def aligned (b : List Byte) : Prop := ∀ x, b.head? = some x → x = 0xAA

/-- Cases (a) and (b) of R29: empty, or an aligned partial frame. -/
def restAligned (b : List Byte) : Prop := aligned b ∧ b.length ≤ 9

/-! ## Invariants -/

/-- The instance is legal and its buffer is within capacity (R12, R24). -/
def State.Inv (s : State) : Prop := s.params.legal = true ∧ Memory.wf s.params s.buf = true

/-- A transaction is the delivery of a chunk. -/
def isDelivery : Transaction → Bool
  | .deliver _ _ => true
  | .cmd _ => false
  | .ctrl _ => false

/-- The status of `s` is the given code. -/
def State.reports (s : State) (c : StatusCode) : Prop := ∃ x, s.st = some x ∧ x.code = c

/-! ## Readings (R180) -/

/-- The reading of a raw count, in micrograms per cubic metre: the exact rational `raw / 10` (R180). -/
def reading (raw : Half) : Rat := (raw.toNat : Rat) / 10

/-! ## Runs of deliveries -/

/-- The frame a delivery that answered `t` handed to the Response Interpreter, if it validated one: the ten bytes after
the `d` discarded ones (R142, R146). -/
def emittedFrame (s : State) (chunk : List Byte) (t : State) : Option (List Byte) :=
  match t.st with
  | some ⟨.ok, d, some _⟩ => some (((s.buf ++ chunk).drop d).take 10)
  | _ => none

/-- Deliver the chunks in order: the state reached and the frames emitted, or nothing if a delivery faults. -/
def deliverAll : List (List Byte × Timestamp) → State → Option (State × List (List Byte))
  | [], s => some (s, [])
  | (chunk, now) :: rest, s =>
    match exec (.deliver chunk now) s with
    | .next t => (deliverAll rest t).map fun r => (r.1, (emittedFrame s chunk t).toList ++ r.2)
    | .fault _ => none
    | .refused _ => none

/-- A byte stream fed one byte at a time, each byte with a timestamp of its own (R153). -/
def byteAtATime (L : List (Byte × Timestamp)) : List (List Byte × Timestamp) :=
  L.map fun x => ([x.1], x.2)

/-- Zero-length deliveries, one per timestamp (R149, R152). -/
def drain (ts : List Timestamp) : List (List Byte × Timestamp) := ts.map fun t => ([], t)

end Sys2Proof.Machine
end

