-- ==== Sys2Proof/Certificates/Slice0/Obligations.lean ====
section
/-! DEFINITION. The statements for the provers. Each docstring names the rules of spec/ it formalises and, where a
clause rests on a decision or an inference the spec marks as its own, or on an entry of the assumption log, says so. -/

open Sys2Proof Sys2Proof.Machine

/-! ## Encoding -/

/-- Decode and encode agree on every well-formed instruction: no operand bit of any encoding is dropped
(30_encoding.md sections 1 to 4). -/
def Obligations.DecodeEncodeRoundTrip : Prop :=
  ∀ i : Instr, i.wf = true → decode (encode i) = i

/-- Every transaction the ports can carry decodes to a well-formed instruction (30_encoding.md; the canonical form of a
delivery is log 4's). -/
def Obligations.EveryTransactionDecodesWellFormed : Prop :=
  ∀ t : Transaction, (decode t).wf = true

/-- The other direction: a delivery and a control code have one name each, so encoding what was decoded gives them
back; a command word comes back with its ignored bits cleared, which decodes the same. -/
def Obligations.EncodeDecodeGivesTransactionBack : Prop :=
  (∀ chunk now, encode (decode (.deliver chunk now)) = .deliver chunk now) ∧
  (∀ code, encode (decode (.ctrl code)) = .ctrl code) ∧
  (∀ W : BitVec 40, ∃ W' : BitVec 40, encode (decode (.cmd W)) = .cmd W' ∧ decode (.cmd W') = decode (.cmd W) ∧
    W'.extractLsb' 36 4 = W.extractLsb' 36 4 ∧ W'.extractLsb' 32 3 = 0)

/-- R75, R77, R78 (decisions D3, D10): two command words that agree on `OP`, on `DP`, on `DEV` where `DP = 1`, and on the
bits of `ARG` their operation reads, decode to the same instruction: `RSV`, the unread bits of `ARG` and `DEV` under
`DP = 0` are ignored. -/
def Obligations.IgnoredCommandBitsHaveNoEffect : Prop :=
  ∀ W W' : BitVec 40,
    W.extractLsb' 36 4 = W'.extractLsb' 36 4 →
    W.getLsbD 35 = W'.getLsbD 35 →
    (W.getLsbD 35 = true → W.extractLsb' 0 16 = W'.extractLsb' 0 16) →
    (W.extractLsb' 36 4 = 0x0#4 ∨ W.extractLsb' 36 4 = 0x4#4 → W.getLsbD 16 = W'.getLsbD 16) →
    (W.extractLsb' 36 4 = 0x3#4 ∨ W.extractLsb' 36 4 = 0x6#4 → W.extractLsb' 16 16 = W'.extractLsb' 16 16) →
    decode (.cmd W) = decode (.cmd W')

/-- Words written out from the spec's encodings decode to what they stand for (95_test_vectors.md sections 2.2 and 2.4,
30_encoding.md R80; a frame in the table's numbering, log 10). -/
def Obligations.SpecWordsDecode : Prop :=
  decode (.cmd 0x0000030000) = .setDataReportingMode .query none ∧
  decode (.cmd 0x2800000A34) = .queryData (some 0x0A34) ∧
  decode (.cmd 0x3812340A34) = .setDeviceId 0x1234 (some 0x0A34) ∧
  decode (.cmd 0x6001FF0000) = .setWorkingPeriod 0x01FF none ∧
  decode (.cmd 0xFFFFFFFFFF) = .reservedOpF ∧
  decode (.ctrl 0) = .clearBuffer ∧ decode (.ctrl 1) = .reset ∧
  decodeTableWord 80 0xAAC034127856010015AB = some (.rxMeasurement 0x1234 0x5678 0x0001 0x15 ⟨0⟩) ∧
  decodeTableWord 80 0xAAC5070F070A340A65AB = some (.rxAckFirmwareVersion 0x0F 0x07 0x0A 0x0A34 0x65 ⟨0⟩)

/-! ## The step -/

/-- A step takes the next transaction the host has issued, decodes it and runs it on the state without it; where the
host has issued none there is no step (log 2, the model's choice). -/
def Obligations.StepRunsTheDecodedTransaction : Prop :=
  (∀ (s : State) (t : Transaction) (rest : List Transaction),
    s.pending = t :: rest → step s = exec (decode t) { s with pending := rest }) ∧
  ∀ s : State, s.pending = [] → step s = .refused .noTransaction

/-- R54: transactions take effect in the order issued; each runs on the state the one before left, and none depends on
a later one: with any other later transactions the first step is the same. -/
def Obligations.TransactionsTakeEffectInOneOrder : Prop :=
  ∀ (s s₁ : State) (t u : Transaction) (rest : List Transaction),
    s.pending = t :: u :: rest → step s = .next s₁ →
    step s₁ = exec (decode u) { s₁ with pending := rest } ∧
    ∀ later : List Transaction, step { s with pending := t :: later } = .next { s₁ with pending := later }

/-- R11 (decision D11): every transaction completes from every state, but for a delivery that would exceed a finite
capacity, whose outcome is the fault of R214. -/
def Obligations.EveryTransactionCompletesUnlessOverflow : Prop :=
  ∀ (t : Transaction) (s : State),
    (∃ s', exec (decode t) s = .next s') ∨
    ∃ chunk now c, t = .deliver chunk now ∧ s.params.bufCap = some c ∧ c < s.buf.length + chunk.length ∧
      exec (decode t) s = .fault (.bufOverflow s.buf.length chunk.length)

/-- R28 (an inference the spec marks as its own) and log 2: no instruction changes the instance's parameters or the host's
sequence. -/
def Obligations.ParametersAndHostSequenceUnchanged : Prop :=
  ∀ (i : Instr) (s t : State), exec i s = .next t → t.params = s.params ∧ t.pending = s.pending

/-! ## The Frame Encoder: results, completion and frame of every command -/

/-- R103 (decisions D3, D4): `OP = 0x0`. -/
def Obligations.SetDataReportingModeEmitsFrame : Prop :=
  (∀ W : BitVec 40, W.extractLsb' 36 4 = 0x0#4 →
    decode (.cmd W) = .setDataReportingMode (if W.getLsbD 16 then .query else .active) (wordTarget W)) ∧
  (∀ (dev? : Option DevId) (s : State),
    exec (.setDataReportingMode .active dev?) s = .next { s with
      tx := some (outboundFrame 0x02 0x01 s.params.modeCodeActive 0 0 (dev?.getD s.devid))
      ev := none, st := some ⟨.ok, 0, none⟩ }) ∧
  (∀ (dev? : Option DevId) (s : State),
    exec (.setDataReportingMode .query dev?) s = .next { s with
      tx := some (outboundFrame 0x02 0x01 s.params.modeCodeQuery 0 0 (dev?.getD s.devid))
      ev := none, st := some ⟨.ok, 0, none⟩ })

/-- R104, R105, R108, R110, R111 (decision D6): the five query and single-form commands without an argument. -/
def Obligations.QueryCommandsEmitFrame : Prop :=
  (∀ W : BitVec 40,
    (W.extractLsb' 36 4 = 0x1#4 → decode (.cmd W) = .getDataReportingMode (wordTarget W)) ∧
    (W.extractLsb' 36 4 = 0x2#4 → decode (.cmd W) = .queryData (wordTarget W)) ∧
    (W.extractLsb' 36 4 = 0x5#4 → decode (.cmd W) = .getStatus (wordTarget W)) ∧
    (W.extractLsb' 36 4 = 0x7#4 → decode (.cmd W) = .getWorkingPeriod (wordTarget W)) ∧
    (W.extractLsb' 36 4 = 0x8#4 → decode (.cmd W) = .checkFirmwareVersion (wordTarget W))) ∧
  ∀ (dev? : Option DevId) (s : State),
    exec (.getDataReportingMode dev?) s = .next { s with
      tx := some (outboundFrame 0x02 0 0 0 0 (dev?.getD s.devid)), ev := none, st := some ⟨.ok, 0, none⟩ } ∧
    exec (.queryData dev?) s = .next { s with
      tx := some (outboundFrame 0x04 0 0 0 0 (dev?.getD s.devid)), ev := none, st := some ⟨.ok, 0, none⟩ } ∧
    exec (.getStatus dev?) s = .next { s with
      tx := some (outboundFrame 0x06 0 0 0 0 (dev?.getD s.devid)), ev := none, st := some ⟨.ok, 0, none⟩ } ∧
    exec (.getWorkingPeriod dev?) s = .next { s with
      tx := some (outboundFrame 0x08 0 0 0 0 (dev?.getD s.devid)), ev := none, st := some ⟨.ok, 0, none⟩ } ∧
    exec (.checkFirmwareVersion dev?) s = .next { s with
      tx := some (outboundFrame 0x07 0 0 0 0 (dev?.getD s.devid)), ev := none, st := some ⟨.ok, 0, none⟩ }

/-- R106 (decisions D6, D7): the new id goes to payload bytes 6 and 7, high byte first; the session id keeps its value. -/
def Obligations.SetDeviceIdEmitsFrame : Prop :=
  (∀ W : BitVec 40, W.extractLsb' 36 4 = 0x3#4 →
    decode (.cmd W) = .setDeviceId (W.extractLsb' 16 16) (wordTarget W)) ∧
  ∀ (newId : DevId) (dev? : Option DevId) (s : State),
    exec (.setDeviceId newId dev?) s = .next { s with
      tx := some (outboundFrame 0x05 0 0 (newId.extractLsb' 8 8) (newId.extractLsb' 0 8) (dev?.getD s.devid))
      ev := none, st := some ⟨.ok, 0, none⟩ }

/-- R107 (decision D5): `OP = 0x4`. -/
def Obligations.SetStatusEmitsFrame : Prop :=
  (∀ W : BitVec 40, W.extractLsb' 36 4 = 0x4#4 →
    decode (.cmd W) = .setStatus (if W.getLsbD 16 then .work else .sleep) (wordTarget W)) ∧
  (∀ (dev? : Option DevId) (s : State),
    exec (.setStatus .sleep dev?) s = .next { s with
      tx := some (outboundFrame 0x06 0x01 s.params.statusCodeSleep 0 0 (dev?.getD s.devid))
      ev := none, st := some ⟨.ok, 0, none⟩ }) ∧
  (∀ (dev? : Option DevId) (s : State),
    exec (.setStatus .work dev?) s = .next { s with
      tx := some (outboundFrame 0x06 0x01 s.params.statusCodeWork 0 0 (dev?.getD s.devid))
      ev := none, st := some ⟨.ok, 0, none⟩ })

/-- R109, R215 (decision D9): an accepted minute count is sent as its low byte; one the range check rejects sends nothing
and reports `BAD_ARG`. -/
def Obligations.SetWorkingPeriodSendsLowByteOrRejects : Prop :=
  (∀ W : BitVec 40, W.extractLsb' 36 4 = 0x6#4 →
    decode (.cmd W) = .setWorkingPeriod (W.extractLsb' 16 16) (wordTarget W)) ∧
  (∀ (minutes : Half) (dev? : Option DevId) (s : State),
    s.params.periodCheck = .noCheck ∨ (s.params.periodCheck = .byte ∧ minutes.toNat ≤ 255) ∨
      (s.params.periodCheck = .sensor ∧ minutes.toNat ≤ 30) →
    exec (.setWorkingPeriod minutes dev?) s = .next { s with
      tx := some (outboundFrame 0x08 0x01 (minutes.extractLsb' 0 8) 0 0 (dev?.getD s.devid))
      ev := none, st := some ⟨.ok, 0, none⟩ }) ∧
  (∀ (minutes : Half) (dev? : Option DevId) (s : State),
    (s.params.periodCheck = .byte ∧ 255 < minutes.toNat) ∨ (s.params.periodCheck = .sensor ∧ 30 < minutes.toNat) →
    exec (.setWorkingPeriod minutes dev?) s =
      .next { s with tx := none, ev := none, st := some ⟨.badArg, 0, none⟩ })

/-- R112, R113, R114 (decisions D3, D4, D8): the three shorthands. -/
def Obligations.ShorthandsEmitFrame : Prop :=
  (∀ W : BitVec 40,
    (W.extractLsb' 36 4 = 0x9#4 → decode (.cmd W) = .forceActiveMode (wordTarget W)) ∧
    (W.extractLsb' 36 4 = 0xA#4 → decode (.cmd W) = .forceQueryMode (wordTarget W)) ∧
    (W.extractLsb' 36 4 = 0xB#4 → decode (.cmd W) = .forceContinuousWorkingPeriod (wordTarget W))) ∧
  ∀ (dev? : Option DevId) (s : State),
    exec (.forceActiveMode dev?) s = .next { s with
      tx := some (outboundFrame 0x02 0x01 s.params.modeCodeActive 0 0 (dev?.getD s.devid))
      ev := none, st := some ⟨.ok, 0, none⟩ } ∧
    exec (.forceQueryMode dev?) s = .next { s with
      tx := some (outboundFrame 0x02 0x01 s.params.modeCodeQuery 0 0 (dev?.getD s.devid))
      ev := none, st := some ⟨.ok, 0, none⟩ } ∧
    exec (.forceContinuousWorkingPeriod dev?) s = .next { s with
      tx := some (outboundFrame 0x08 0x01 s.params.continuousPeriod 0 0 (dev?.getD s.devid))
      ev := none, st := some ⟨.ok, 0, none⟩ }

/-- R84 (decisions D3, D8): each shorthand does what its expansion does, the third one where its expansion passes the
range check. -/
def Obligations.ShorthandsEqualTheirExpansions : Prop :=
  ∀ (dev? : Option DevId) (s : State),
    exec (.forceActiveMode dev?) s = exec (.setDataReportingMode .active dev?) s ∧
    exec (.forceQueryMode dev?) s = exec (.setDataReportingMode .query dev?) s ∧
    ((s.params.periodCheck = .sensor → s.params.continuousPeriod.toNat ≤ 30) →
      exec (.forceContinuousWorkingPeriod dev?) s =
        exec (.setWorkingPeriod (s.params.continuousPeriod.setWidth 16) dev?) s)

/-- R115, R76 (decision D10): the four reserved codes emit nothing, report `BAD_OP` and change no register, whatever the
other bits of the word. -/
def Obligations.ReservedOpsReportBadOp : Prop :=
  (∀ W : BitVec 40,
    (W.extractLsb' 36 4 = 0xC#4 → decode (.cmd W) = .reservedOpC) ∧
    (W.extractLsb' 36 4 = 0xD#4 → decode (.cmd W) = .reservedOpD) ∧
    (W.extractLsb' 36 4 = 0xE#4 → decode (.cmd W) = .reservedOpE) ∧
    (W.extractLsb' 36 4 = 0xF#4 → decode (.cmd W) = .reservedOpF)) ∧
  ∀ s : State,
    exec .reservedOpC s = .next { s with tx := none, ev := none, st := some ⟨.badOp, 0, none⟩ } ∧
    exec .reservedOpD s = .next { s with tx := none, ev := none, st := some ⟨.badOp, 0, none⟩ } ∧
    exec .reservedOpE s = .next { s with tx := none, ev := none, st := some ⟨.badOp, 0, none⟩ } ∧
    exec .reservedOpF s = .next { s with tx := none, ev := none, st := some ⟨.badOp, 0, none⟩ }

/-- R60, R61, R62, R66, R67, R92, R101: the layout of every frame any command word makes the block emit, with its target
from the word's own bits or the session register. That payload bytes 3 to 5 and 8 to 10 are zero for every command is R65
(decision D7) and R117 (an inference the spec marks as its own); the places of `OP`, `DP` and `DEV` are R75's (D3). -/
def Obligations.EveryOutboundFrameHasTheLayout : Prop :=
  ∀ (W : BitVec 40) (s t : State) (F : List Byte),
    exec (decode (.cmd W)) s = .next t → t.tx = some F →
    F.length = 19 ∧ (slice F 2 16).length = 15 ∧
    byteAt F 0 = 0xAA ∧ byteAt F 1 = 0xB4 ∧
    byteAt F 2 ∈ [2, 4, 5, 6, 7, 8] ∧
    byteAt F 5 = 0 ∧ byteAt F 6 = 0 ∧ byteAt F 7 = 0 ∧
    (W.extractLsb' 36 4 ≠ 0x3#4 → byteAt F 8 = 0 ∧ byteAt F 9 = 0) ∧
    byteAt F 10 = 0 ∧ byteAt F 11 = 0 ∧ byteAt F 12 = 0 ∧
    byteAt F 13 = 0 ∧ byteAt F 14 = 0 ∧
    byteAt F 15 = (if W.getLsbD 35 then W.extractLsb' 0 16 else s.devid).extractLsb' 8 8 ∧
    byteAt F 16 = (if W.getLsbD 35 then W.extractLsb' 0 16 else s.devid).extractLsb' 0 8 ∧
    byteAt F 17 = checksum (slice F 2 16) ∧ byteAt F 18 = 0xAB

/-- R118, R102 (decisions D27, D9, D10): a command that reports `OK` emits one frame, and it satisfies `tx_valid`; one that
reports anything else emits nothing; no command makes an event; without a range check every `OP` up to `0xB` reports
`OK`. -/
def Obligations.OkCommandEmitsOneValidFrame : Prop :=
  ∀ (W : BitVec 40) (s : State), ∃ t, exec (decode (.cmd W)) s = .next t ∧ t.ev = none ∧
    (t.reports .ok → ∃ F, t.tx = some F ∧ txValid F) ∧
    (¬ t.reports .ok → t.tx = none ∧ (t.reports .badOp ∨ t.reports .badArg)) ∧
    (s.params.periodCheck = .noCheck → (W.extractLsb' 36 4).toNat ≤ 0xB → t.reports .ok)

/-- R116 (an inference the spec marks as its own): a command writes no register, and its outputs depend only on the word, on
the session id where `DP = 0`, and on the parameters. -/
def Obligations.CommandsWriteNoRegisterAndReadOnlyTheSessionId : Prop :=
  ∀ (W : BitVec 40) (s₁ s₂ t₁ : State),
    exec (decode (.cmd W)) s₁ = .next t₁ →
    t₁.devid = s₁.devid ∧ t₁.buf = s₁.buf ∧
    (s₁.params = s₂.params → (W.getLsbD 35 = false → s₁.devid = s₂.devid) →
      ∃ t₂, exec (decode (.cmd W)) s₂ = .next t₂ ∧ t₂.tx = t₁.tx ∧ t₂.ev = t₁.ev ∧ t₂.st = t₁.st)

/-! ## The checksum -/

/-- R90: the unbounded unsigned sum, modulo 256; 0 of the empty sequence. -/
def Obligations.ChecksumIsTheSumModulo256 : Prop :=
  (∀ s : List Byte, (checksum s).toNat = (s.map BitVec.toNat).sum % 256) ∧ checksum [] = 0

/-- R91 (an inference the spec marks as its own): reducing modulo 256 after every addition gives the same result. -/
def Obligations.ChecksumMayBeReducedAtEveryByte : Prop :=
  ∀ s : List Byte, checksum s = s.foldl (fun acc b => acc + b) (0 : Byte)

/-- R94 (an inference the spec marks as its own): zeros give 0, a sum that is a multiple of 256 gives 0, only the multiset
of bytes matters, changes by `k` and `-k` cancel, and the largest sums of the two uses fit 12 bits. -/
def Obligations.ChecksumCornerCases : Prop :=
  (∀ n, checksum (List.replicate n 0) = 0) ∧
  (∀ s : List Byte, 256 ∣ (s.map BitVec.toNat).sum → checksum s = 0) ∧
  (∀ s s' : List Byte, s.Perm s' → checksum s = checksum s') ∧
  (∀ (a b c : List Byte) (x y k : Byte), checksum (a ++ (x + k) :: b ++ (y - k) :: c) = checksum (a ++ x :: b ++ y :: c)) ∧
  (∀ s : List Byte, s.length = 15 → (s.map BitVec.toNat).sum ≤ 3825) ∧
  (∀ s : List Byte, s.length = 6 → (s.map BitVec.toNat).sum ≤ 1530) ∧ 3825 < 2 ^ 12

/-! ## The Stream Framer -/

/-- R42, R43, R142: a delivery appends its chunk in order, removes exactly the bytes before the first head marker, or all
when there is none, and reports how many it removed; what it keeps is taken from the aligned rest. -/
def Obligations.DeliveryRemovesBytesBeforeTheFirstHead : Prop :=
  ∀ (chunk : List Byte) (now : Timestamp) (s t : State),
    exec (.deliver chunk now) s = .next t →
    ∃ pre b x, s.buf ++ chunk = pre ++ b ∧ (0xAA : Byte) ∉ pre ∧ aligned b ∧
      t.st = some x ∧ x.d = pre.length ∧ (t.buf = b ∨ t.buf = b.drop 10 ∨ t.buf = [])

/-- R143: fewer than ten bytes after resynchronisation end the delivery with `SHORT`; nothing is emitted, the aligned rest
stays. -/
def Obligations.ShortDeliveryWaits : Prop :=
  ∀ (chunk pre b : List Byte) (now : Timestamp) (s : State),
    fits s chunk → s.buf ++ chunk = pre ++ b → (0xAA : Byte) ∉ pre → aligned b → b.length < 10 →
    exec (.deliver chunk now) s =
      .next { s with buf := b, tx := none, ev := none, st := some ⟨.short, pre.length, none⟩ }

/-- R145, R218 (decisions D12, D21), with R44 and R93: a frame that fails validation loses exactly its ten bytes, the rest is
kept and not looked at. The checksum failure is reported before the tail failure, which is D21's. -/
def Obligations.InvalidFrameLosesExactlyTenBytes : Prop :=
  ∀ (chunk pre f rest : List Byte) (now : Timestamp) (s : State),
    fits s chunk → s.buf ++ chunk = pre ++ f ++ rest → (0xAA : Byte) ∉ pre → aligned f → f.length = 10 →
    (checksum (slice f 2 7) ≠ byteAt f 8 →
      exec (.deliver chunk now) s =
        .next { s with buf := rest, tx := none, ev := none, st := some ⟨.badChecksum, pre.length, none⟩ }) ∧
    (checksum (slice f 2 7) = byteAt f 8 → byteAt f 9 ≠ 0xAB →
      exec (.deliver chunk now) s =
        .next { s with buf := rest, tx := none, ev := none, st := some ⟨.badTail, pre.length, none⟩ })

/-- R73, R144: ten aligned bytes are validated by the checksum of bytes 2 to 7 against byte 8 and by the tail in byte 9,
and by nothing else: the delivery reports `OK` exactly when both hold, whatever the class byte and the bytes after. -/
def Obligations.DeliveryIsOkExactlyWhenTheFrameIsValid : Prop :=
  ∀ (chunk pre f rest : List Byte) (now : Timestamp) (s : State),
    fits s chunk → s.buf ++ chunk = pre ++ f ++ rest → (0xAA : Byte) ∉ pre → aligned f → f.length = 10 →
    ∃ t, exec (.deliver chunk now) s = .next t ∧ (t.reports .ok ↔ rxValid f)

/-- R146, R155, R170 (decisions D13, D15 to D21): after a valid frame the buffer is cleared, the bytes after it never reach
the interpreter, and what the interpreter leaves is the pseudocode of R170. -/
def Obligations.ValidFrameIsInterpretedAndTheRestDiscarded : Prop :=
  ∀ (chunk pre f rest : List Byte) (now : Timestamp) (s : State),
    fits s chunk → s.buf ++ chunk = pre ++ f ++ rest → (0xAA : Byte) ∉ pre → aligned f → f.length = 10 → rxValid f →
    exec (.deliver chunk now) s = .next (interpreted f now pre.length s)

/-- R214, R141, R218 (decision D11): a delivery, in every one of its nine forms, faults exactly when its chunk would exceed a
finite capacity; the fault carries both lengths. -/
def Obligations.OverflowIsTheOnlyFault : Prop :=
  (∀ (chunk : List Byte) (now : Timestamp) (s : State),
    ¬ fits s chunk → exec (.deliver chunk now) s = .fault (.bufOverflow s.buf.length chunk.length)) ∧
  (∀ (i : Instr) (s : State) (e : Fault), exec i s = .fault e →
    ∃ chunk now, encode i = .deliver chunk now ∧ ¬ fits s chunk ∧ e = .bufOverflow s.buf.length chunk.length)

/-- R212, R156 (decision D21): a delivery that reports a framing error emits nothing, writes no device id, and the block goes
on. -/
def Obligations.FramingErrorsEmitNothing : Prop :=
  ∀ (chunk : List Byte) (now : Timestamp) (s t : State),
    exec (.deliver chunk now) s = .next t → ¬ t.reports .ok →
    t.ev = none ∧ t.tx = none ∧ t.devid = s.devid ∧
    (t.reports .short ∨ t.reports .badChecksum ∨ t.reports .badTail)

/-- R149 (an inference the spec marks as its own): a delivery of no bytes changes nothing on an empty or aligned partial
buffer, and drains a valid frame out of a retained remainder. -/
def Obligations.ZeroLengthDelivery : Prop :=
  ∀ (now : Timestamp) (s : State), fits s [] →
    (restAligned s.buf →
      exec (.deliver [] now) s = .next { s with tx := none, ev := none, st := some ⟨.short, 0, none⟩ }) ∧
    (∀ pre f rest, s.buf = pre ++ f ++ rest → (0xAA : Byte) ∉ pre → aligned f → f.length = 10 → rxValid f →
      exec (.deliver [] now) s = .next (interpreted f now pre.length s))

/-- R151, R26 (an inference the spec marks as its own, decision D29): the framer's two states after each transaction, row by
row of the table: from the bytes held and offered, and back from the status reported. After a failed validation the buffer
is the remainder, and its first byte decides. -/
def Obligations.FramerStateMachine : Prop :=
  (∀ (chunk : List Byte) (now : Timestamp) (s t : State), exec (.deliver chunk now) s = .next t →
    ((0xAA : Byte) ∉ s.buf ++ chunk → t.reports .short ∧ t.buf = [] ∧ fstate t.buf = .awaitingSync) ∧
    (t.reports .short → (0xAA : Byte) ∈ s.buf ++ chunk →
      1 ≤ t.buf.length ∧ t.buf.length ≤ 9 ∧ fstate t.buf = .accumulating) ∧
    (t.reports .ok → t.buf = [] ∧ fstate t.buf = .awaitingSync) ∧
    (∀ pre b, s.buf ++ chunk = pre ++ b → (0xAA : Byte) ∉ pre → aligned b → b ≠ [] → b.length < 10 →
      t.reports .short ∧ t.buf = b ∧ fstate t.buf = .accumulating) ∧
    (t.reports .badChecksum ∨ t.reports .badTail →
      ∃ pre f rest, s.buf ++ chunk = pre ++ f ++ rest ∧ (0xAA : Byte) ∉ pre ∧ aligned f ∧ f.length = 10 ∧
        ¬ rxValid f ∧ t.buf = rest) ∧
    (∀ pre f rest, s.buf ++ chunk = pre ++ f ++ rest → (0xAA : Byte) ∉ pre → aligned f → f.length = 10 →
      (rxValid f → t.reports .ok ∧ t.buf = [] ∧ fstate t.buf = .awaitingSync) ∧
      (¬ rxValid f → (t.reports .badChecksum ∨ t.reports .badTail) ∧ t.buf = rest ∧
        (fstate t.buf = .accumulating ↔ rest.head? = some 0xAA) ∧
        (fstate t.buf = .awaitingSync ↔ rest.head? ≠ some 0xAA)))) ∧
  (∀ s t : State, exec .clearBuffer s = .next t ∨ exec .reset s = .next t → fstate t.buf = .awaitingSync) ∧
  (∀ (W : BitVec 40) (s t : State), exec (decode (.cmd W)) s = .next t → fstate t.buf = fstate s.buf)

/-- R152 (an inference the spec marks as its own): every delivery ends with at most nine bytes or removes ten at least; so many
zero-length deliveries as tens in the buffer bring it to an empty or aligned partial one; and one valid frame delivered
to an empty buffer is emitted. -/
def Obligations.FramerMakesProgress : Prop :=
  (∀ (chunk : List Byte) (now : Timestamp) (s t : State), exec (.deliver chunk now) s = .next t →
    t.buf.length ≤ 9 ∨ t.buf.length + 10 ≤ s.buf.length + chunk.length) ∧
  (∀ (ts : List Timestamp) (s : State), fits s [] → s.buf.length ≤ 10 * ts.length →
    ∃ t frames, deliverAll (drain ts) s = some (t, frames) ∧ restAligned t.buf) ∧
  (∀ (f : List Byte) (now : Timestamp) (s : State), s.buf = [] → fits s f → f.length = 10 → aligned f → rxValid f →
    ∃ t, deliverAll [(f, now)] s = some (t, [f]))

/-- R153 (an inference the spec marks as its own): one chunk against one byte at a time, from an empty buffer. With fewer than
ten aligned bytes neither emits; otherwise both agree on the first frame and the two ways emit the same exactly when
feeding what follows that frame, byte by byte from an empty buffer, emits nothing. Byte by byte, at most nine bytes are
ever left. -/
def Obligations.ChunkingChangesTheFramesExactlySo : Prop :=
  ∀ (L : List (Byte × Timestamp)) (now : Timestamp) (s : State),
    s.buf = [] → s.params.legal = true → fits s (L.map Prod.fst) →
    ∃ t₁ t₂ one each, deliverAll [(L.map Prod.fst, now)] s = some (t₁, one) ∧
      deliverAll (byteAtATime L) s = some (t₂, each) ∧ t₂.buf.length ≤ 9 ∧
      (∀ pre b, L.map Prod.fst = pre ++ b → (0xAA : Byte) ∉ pre → aligned b → b.length < 10 → one = [] ∧ each = []) ∧
      (∀ pre f rest, L.map Prod.fst = pre ++ f ++ rest → (0xAA : Byte) ∉ pre → aligned f → f.length = 10 →
        ∃ t₃ more, deliverAll (byteAtATime (L.drop (pre.length + 10))) s = some (t₃, more) ∧
          (rxValid f → one = [f]) ∧ (¬ rxValid f → one = []) ∧
          each = one ++ more ∧ (one = each ↔ more = []))

/-- R154 (an inference the spec marks as its own): an aligned partial frame of `j` bytes at rest takes the first `10 - j` bytes
of the next chunk; when that fails validation they are discarded with it, though a valid frame started there, and no
event is made. -/
def Obligations.PartialFrameSwallowsTheNextOne : Prop :=
  ∀ (chunk : List Byte) (now : Timestamp) (s : State),
    fits s chunk → aligned s.buf → 1 ≤ s.buf.length → s.buf.length ≤ 9 → 10 - s.buf.length ≤ chunk.length →
    ¬ rxValid (s.buf ++ chunk.take (10 - s.buf.length)) →
    ∃ t, exec (.deliver chunk now) s = .next t ∧ t.ev = none ∧ t.buf = chunk.drop (10 - s.buf.length) ∧
      (t.reports .badChecksum ∨ t.reports .badTail) ∧ t.devid = s.devid

/-- R248 (an inference the spec marks as its own): each failed validation changes the buffer's length by the chunk's length
less ten less the resynchronisation count. -/
def Obligations.FailedValidationGrowsTheBufferByTheRest : Prop :=
  ∀ (chunk : List Byte) (now : Timestamp) (s t : State) (x : Status),
    exec (.deliver chunk now) s = .next t → t.st = some x → x.code = .badChecksum ∨ x.code = .badTail →
    t.buf.length + 10 + x.d = s.buf.length + chunk.length

/-- R181, R35 (decision D20): the timestamp is copied into the event and has no other effect. -/
def Obligations.TimestampIsOnlyCopied : Prop :=
  ∀ (chunk : List Byte) (now now' : Timestamp) (s t : State),
    exec (.deliver chunk now) s = .next t →
    t.ev = t.ev.map (Event.at now) ∧
    exec (.deliver chunk now') s = .next { t with ev := t.ev.map (Event.at now') }

/-! ## The inbound-frame rows -/

/-- Log 4, the model's choice: in every state an `rx` row does what the delivery of its ten bytes does. -/
def Obligations.FrameRowsAreDeliveries : Prop :=
  ∀ (i : Instr) (chunk : List Byte) (now : Timestamp) (s : State),
    encode i = .deliver chunk now → exec i s = exec (.deliver chunk now) s

/-- R171, R172, R173: wherever a delivery validates a measurement frame, the session id becomes the frame's and the event
carries both raw counts and the delivery's timestamp; as its own row, on an empty buffer, likewise. The cleared buffer is
R45 and R146 (decision D13), the status record is decision D21's; that the row is its delivery is log 4's, the model's
choice. -/
def Obligations.MeasurementFrameMakesItsEvent : Prop :=
  (∀ (chunk pre f rest : List Byte) (now : Timestamp) (s : State),
    fits s chunk → s.buf ++ chunk = pre ++ f ++ rest → (0xAA : Byte) ∉ pre → aligned f → f.length = 10 → rxValid f →
    byteAt f 1 = 0xC0 →
    exec (.deliver chunk now) s = .next { s with
      devid := u16le (byteAt f 6) (byteAt f 7), buf := [], tx := none
      ev := some (.meas (u16le (byteAt f 2) (byteAt f 3)) (u16le (byteAt f 4) (byteAt f 5)) now)
      st := some ⟨.ok, pre.length, some .meas⟩ }) ∧
  (∀ (pm25 pm10 : Half) (id : DevId) (ck : Byte) (now : Timestamp) (s : State),
    s.buf = [] → s.params.legal = true →
    checksum [pm25.extractLsb' 0 8, pm25.extractLsb' 8 8, pm10.extractLsb' 0 8, pm10.extractLsb' 8 8,
      id.extractLsb' 0 8, id.extractLsb' 8 8] = ck →
    exec (.rxMeasurement pm25 pm10 id ck now) s = .next { s with
      devid := id, buf := [], tx := none, ev := some (.meas pm25 pm10 now), st := some ⟨.ok, 0, some .meas⟩ }) ∧
  ∀ l h : Byte, (u16le l h).toNat = l.toNat + 256 * h.toNat

/-- R174, R175, R176 (decisions D15, D16, D17): a valid acknowledgment of each of the five recognised sub-commands, on an
empty buffer, sets the session id and passes its three data bytes through. -/
def Obligations.AckFramesMakeTheirEvent : Prop :=
  ∀ (d3 d4 d5 ck : Byte) (id : DevId) (now : Timestamp) (s : State),
    s.buf = [] → s.params.legal = true →
    (checksum [2, d3, d4, d5, id.extractLsb' 0 8, id.extractLsb' 8 8] = ck →
      exec (.rxAckReportingMode d3 d4 d5 id ck now) s = .next { s with
        devid := id, buf := [], tx := none, ev := some (.ack 2 d3 d4 d5 id now), st := some ⟨.ok, 0, some .ack⟩ }) ∧
    (checksum [5, d3, d4, d5, id.extractLsb' 0 8, id.extractLsb' 8 8] = ck →
      exec (.rxAckDeviceId d3 d4 d5 id ck now) s = .next { s with
        devid := id, buf := [], tx := none, ev := some (.ack 5 d3 d4 d5 id now), st := some ⟨.ok, 0, some .ack⟩ }) ∧
    (checksum [6, d3, d4, d5, id.extractLsb' 0 8, id.extractLsb' 8 8] = ck →
      exec (.rxAckSleepWork d3 d4 d5 id ck now) s = .next { s with
        devid := id, buf := [], tx := none, ev := some (.ack 6 d3 d4 d5 id now), st := some ⟨.ok, 0, some .ack⟩ }) ∧
    (checksum [7, d3, d4, d5, id.extractLsb' 0 8, id.extractLsb' 8 8] = ck →
      exec (.rxAckFirmwareVersion d3 d4 d5 id ck now) s = .next { s with
        devid := id, buf := [], tx := none, ev := some (.ack 7 d3 d4 d5 id now), st := some ⟨.ok, 0, some .ack⟩ }) ∧
    (checksum [8, d3, d4, d5, id.extractLsb' 0 8, id.extractLsb' 8 8] = ck →
      exec (.rxAckWorkingPeriod d3 d4 d5 id ck now) s = .next { s with
        devid := id, buf := [], tx := none, ev := some (.ack 8 d3 d4 d5 id now), st := some ⟨.ok, 0, some .ack⟩ })

/-- R178, R216 (decisions D17, D19): an acknowledgment of any other sub-command makes no event and still sets the session id.
The term with a recognised sub-command is not well-formed and stands for that sub-command's own row. -/
def Obligations.UnrecognisedAckIsDroppedButSetsTheId : Prop :=
  ∀ (sub d3 d4 d5 ck : Byte) (id : DevId) (now : Timestamp) (s : State),
    s.buf = [] → s.params.legal = true → sub ∉ [2, 5, 6, 7, 8] →
    checksum [sub, d3, d4, d5, id.extractLsb' 0 8, id.extractLsb' 8 8] = ck →
    exec (.rxAckUnrecognised sub d3 d4 d5 id ck now) s = .next { s with
      devid := id, buf := [], tx := none, ev := none, st := some ⟨.ok, 0, some .ackDropped⟩ }

/-- R179, R216 (decision D18): a valid frame of any other class makes an informational event that carries the unchanged session
id, and writes no device id. -/
def Obligations.UnknownClassMakesItsEventAndKeepsTheId : Prop :=
  ∀ (cls d2 d3 d4 d5 d6 d7 ck : Byte) (now : Timestamp) (s : State),
    s.buf = [] → s.params.legal = true → cls ≠ 0xC0 → cls ≠ 0xC5 →
    checksum [d2, d3, d4, d5, d6, d7] = ck →
    exec (.rxUnknownClass cls d2 d3 d4 d5 d6 d7 ck now) s = .next { s with
      buf := [], tx := none, ev := some (.unknownClass cls s.devid now), st := some ⟨.ok, 0, some .unknownClass⟩ }

/-- R145 (decisions D12, D21): each row with a wrong checksum byte, on an empty buffer, is discarded: no event, no device
id, status `BAD_CHECKSUM`. -/
def Obligations.FrameRowsWithWrongChecksumAreDiscarded : Prop :=
  ∀ (i : Instr) (d2 d3 d4 d5 d6 d7 cls ck : Byte) (now : Timestamp) (s : State),
    s.buf = [] → s.params.legal = true →
    encode i = .deliver [0xAA, cls, d2, d3, d4, d5, d6, d7, ck, 0xAB] now → checksum [d2, d3, d4, d5, d6, d7] ≠ ck →
    exec i s = .next { s with buf := [], tx := none, ev := none, st := some ⟨.badChecksum, 0, none⟩ }

/-! ## Control and reset -/

/-- R200 (decision D23): the buffer empties, the session id stays. -/
def Obligations.ClearBufferEmptiesOnlyTheBuffer : Prop :=
  ∀ s : State, exec .clearBuffer s = .next { s with buf := [], tx := none, ev := none, st := some ⟨.ok, 0, none⟩ }

/-- R240 (decision D22): RESET writes both registers their reset values, from every state. -/
def Obligations.ResetWritesBothRegisters : Prop :=
  ∀ s : State, exec .reset s =
    .next { s with devid := 0xFFFF, buf := [], tx := none, ev := none, st := some ⟨.ok, 0, none⟩ }

/-- R34, R241 (decision D22) and logs 2, 3, 8: the state at power-up; its parameters are the defaults of R12, and it meets
the invariant and rests aligned. -/
def Obligations.PowerUpState : Prop :=
  State.reset.devid = 0xFFFF ∧ State.reset.buf = [] ∧ State.reset.tx = none ∧ State.reset.ev = none ∧
  State.reset.st = none ∧ State.reset.pending = [] ∧
  State.reset.params = ⟨none, .noCheck, 0, 1, 0, 1, 0⟩ ∧
  State.reset.Inv ∧ restAligned State.reset.buf ∧ fstate State.reset.buf = .awaitingSync

/-! ## Rules of the whole machine -/

/-- R24, R12 (decision D11): the buffer never exceeds a finite capacity, and the instance stays legal: every step keeps
both, from every state that meets them. -/
def Obligations.EveryStepKeepsTheCapacityInvariant : Prop :=
  ∀ s s' : State, s.Inv → step s = .next s' → s'.Inv

/-- R29 (an inference the spec marks as its own): every step keeps the buffer empty or an aligned partial frame, unless it is a
delivery that failed validation; and a delivery that did not fail leaves it so, whatever it was. -/
def Obligations.BufferRestsAlignedUnlessValidationFailed : Prop :=
  (∀ s s' : State, step s = .next s' → restAligned s.buf →
    restAligned s'.buf ∨ s'.reports .badChecksum ∨ s'.reports .badTail) ∧
  (∀ (chunk : List Byte) (now : Timestamp) (s t : State), exec (.deliver chunk now) s = .next t →
    ¬ t.reports .badChecksum → ¬ t.reports .badTail → restAligned t.buf)

/-- R22, R21 (an inference the spec marks as its own): only RESET, and a delivery that emitted a frame of class `0xC0` or `0xC5`,
change the session id, and to these values. -/
def Obligations.OnlyRepliesAndResetChangeTheSessionId : Prop :=
  ∀ s s' : State, step s = .next s' → s'.devid ≠ s.devid →
    ∃ t rest, s.pending = t :: rest ∧
      ((t = .ctrl 1 ∧ s'.devid = 0xFFFF) ∨
       ∃ chunk now f, t = .deliver chunk now ∧ emittedFrame s chunk s' = some f ∧
         (byteAt f 1 = 0xC0 ∨ byteAt f 1 = 0xC5) ∧ s'.devid = u16le (byteAt f 6) (byteAt f 7))

/-- R157: no transaction but a delivery reads the buffer, and of those only CLEAR_BUF and RESET write it, to empty; a
delivery that waited is resumed exactly where it left off: the next one does what one delivery of both chunks would have
done, its own resynchronisation count apart. -/
def Obligations.BufferOwnershipAndResumption : Prop :=
  (∀ (W : BitVec 40) (s t : State) (b : List Byte), exec (decode (.cmd W)) s = .next t →
    t.buf = s.buf ∧ exec (decode (.cmd W)) { s with buf := b } = .next { t with buf := b }) ∧
  (∀ (code : BitVec 1) (s t : State) (b : List Byte), exec (decode (.ctrl code)) s = .next t →
    t.buf = [] ∧ exec (decode (.ctrl code)) { s with buf := b } = .next t) ∧
  (∀ (first second : List Byte) (now now' : Timestamp) (s t : State) (x : Status),
    exec (.deliver first now) s = .next t → t.st = some x → x.code = .short → fits s (first ++ second) →
    ∃ u y, exec (.deliver second now') t = .next u ∧ u.st = some y ∧
      exec (.deliver (first ++ second) now') s = .next { u with st := some { y with d := x.d + y.d } })

/-- R33, R211 (an inference the spec marks as its own, decision D21): the outputs each kind of transaction gives and the
registers it writes. -/
def Obligations.OutputsOfEachTransaction : Prop :=
  ∀ (t : Transaction) (s s' : State), exec (decode t) s = .next s' →
    ∃ x, s'.st = some x ∧
      (∀ W, t = .cmd W → s'.ev = none ∧ x.d = 0 ∧ x.r = none ∧ s'.devid = s.devid ∧ s'.buf = s.buf ∧
        ((x.code = .ok ∧ ∃ F, s'.tx = some F) ∨ ((x.code = .badOp ∨ x.code = .badArg) ∧ s'.tx = none))) ∧
      (∀ chunk now, t = .deliver chunk now → s'.tx = none ∧
        (x.code = .short ∨ x.code = .badChecksum ∨ x.code = .badTail ∨ x.code = .ok) ∧
        (x.r.isSome = true ↔ x.code = .ok) ∧
        (s'.ev.isSome = true ↔ x.r = some .meas ∨ x.r = some .ack ∨ x.r = some .unknownClass)) ∧
      (∀ code, t = .ctrl code → s'.tx = none ∧ s'.ev = none ∧ x = ⟨.ok, 0, none⟩ ∧ s'.buf = [] ∧
        s'.devid = if code = 1 then 0xFFFF else s.devid)

/-- R57: a command without an explicit target, issued after a delivery, is addressed to the id that delivery left; with the
layout of R67. -/
def Obligations.CommandUsesTheIdEarlierDeliveriesLeft : Prop :=
  ∀ (chunk : List Byte) (now : Timestamp) (W : BitVec 40) (rest : List Transaction) (s t₁ t₂ : State) (F : List Byte),
    s.pending = .deliver chunk now :: .cmd W :: rest → W.getLsbD 35 = false →
    step s = .next t₁ → step t₁ = .next t₂ → t₂.tx = some F →
    byteAt F 15 = t₁.devid.extractLsb' 8 8 ∧ byteAt F 16 = t₁.devid.extractLsb' 0 8 ∧ t₂.devid = t₁.devid

/-- R47, R101, R172: the byte orders of the five multi-byte fields. Outbound ids travel high byte first; inbound counts and ids
low byte first, so a learned id is sent back with its bytes exchanged. That every `0xC5` frame, an unrecognised
acknowledgment included, sets the session id low byte first is R174 (decision D17, log 9); the places of `DP` and `DEV` in
the word are R75's (decision D3, log 9). -/
def Obligations.WireByteOrders : Prop :=
  (∀ (newId : DevId) (dev? : Option DevId) (s t : State) (F : List Byte),
    exec (.setDeviceId newId dev?) s = .next t → t.tx = some F →
    u16be (byteAt F 8) (byteAt F 9) = newId ∧ u16be (byteAt F 15) (byteAt F 16) = dev?.getD s.devid) ∧
  (∀ (W : BitVec 40) (s t : State) (F : List Byte),
    exec (decode (.cmd W)) s = .next t → t.tx = some F →
    u16be (byteAt F 15) (byteAt F 16) = if W.getLsbD 35 then W.extractLsb' 0 16 else s.devid) ∧
  (∀ (chunk pre f rest : List Byte) (now : Timestamp) (s : State),
    fits s chunk → s.buf ++ chunk = pre ++ f ++ rest → (0xAA : Byte) ∉ pre → aligned f → f.length = 10 → rxValid f →
    ∃ t, exec (.deliver chunk now) s = .next t ∧
      (byteAt f 1 = 0xC0 → t.ev = some (.meas (u16le (byteAt f 2) (byteAt f 3)) (u16le (byteAt f 4) (byteAt f 5)) now)) ∧
      (byteAt f 1 = 0xC0 ∨ byteAt f 1 = 0xC5 → t.devid = u16le (byteAt f 6) (byteAt f 7)) ∧
      (byteAt f 1 = 0xC0 ∨ byteAt f 1 = 0xC5 → ∃ u, exec (.queryData none) t = .next u ∧
        ∃ F, u.tx = some F ∧ byteAt F 15 = byteAt f 7 ∧ byteAt F 16 = byteAt f 6))

/-- R180 (decision D14): a reading is the exact tenth of its count, never negative, at most 6553.5; no two counts share
one. -/
def Obligations.ReadingsAreExactTenths : Prop :=
  ∀ raw raw' : Half, reading raw * 10 = raw.toNat ∧ 0 ≤ reading raw ∧ reading raw ≤ 65535 / 10 ∧
    (reading raw = reading raw' → raw = raw')
end

