-- ==== Sys2Proof/Laws/Operands.lean ====
section
/-! SUPPORT. Laws of the byte arithmetic and of the checksum's accumulator. -/

namespace Sys2Proof.Machine

/-- Splitting a 16-bit value and assembling it again, low byte first. -/
@[simp] theorem u16le_lo8_hi8 (v : Half) : u16le (lo8 v) (hi8 v) = v := by
  apply BitVec.eq_of_toNat_eq
  have := v.isLt
  simp only [u16le, lo8, hi8, BitVec.toNat_ofNat, BitVec.extractLsb'_toNat, Nat.shiftRight_eq_div_pow]
  omega

/-- The same, high byte first. -/
@[simp] theorem u16be_hi8_lo8 (v : Half) : u16be (hi8 v) (lo8 v) = v := by
  apply BitVec.eq_of_toNat_eq
  have := v.isLt
  simp only [u16be, lo8, hi8, BitVec.toNat_ofNat, BitVec.extractLsb'_toNat, Nat.shiftRight_eq_div_pow]
  omega

theorem u16le_toNat (l h : Byte) : (u16le l h).toNat = l.toNat + 256 * h.toNat := by
  have := l.isLt
  have := h.isLt
  simp only [u16le, BitVec.toNat_ofNat]
  omega

@[simp] theorem lo8_u16le (l h : Byte) : lo8 (u16le l h) = l := by
  apply BitVec.eq_of_toNat_eq
  have := l.isLt
  have := h.isLt
  simp only [lo8, BitVec.extractLsb'_toNat, u16le_toNat, Nat.shiftRight_eq_div_pow]
  omega

@[simp] theorem hi8_u16le (l h : Byte) : hi8 (u16le l h) = h := by
  apply BitVec.eq_of_toNat_eq
  have := l.isLt
  have := h.isLt
  simp only [hi8, BitVec.extractLsb'_toNat, u16le_toNat, Nat.shiftRight_eq_div_pow]
  omega

/-- The accumulator of the checksum: what it starts from is added. -/
theorem checksum_acc (s : List Byte) (n : Nat) :
    s.foldl (fun acc b => acc + b.toNat) n = n + (s.map BitVec.toNat).sum := by
  induction s generalizing n with
  | nil => simp
  | cons b s ih => simp [ih, Nat.add_assoc]

end Sys2Proof.Machine
end

