-- ==== Sys2Proof/Laws/Encode.lean ====
section
/-! SUPPORT. The fields of an assembled command word, and the frames the encoder writes. -/

namespace Sys2Proof

open Sys2Proof.Machine

theorem cmdWord_toNat (op : BitVec 4) (arg : Half) (dev? : Option DevId) :
    (cmdWord op arg dev?).toNat =
      op.toNat * 2 ^ 36 + (if dev?.isSome then 2 ^ 35 else 0) + arg.toNat * 2 ^ 16 + (dev?.getD 0).toNat := by
  have ha := arg.isLt
  have hd := (dev?.getD 0).isLt
  have hb : (BitVec.ofBool dev?.isSome).toNat = if dev?.isSome then 1 else 0 := by cases dev? <;> rfl
  simp only [cmdWord, BitVec.toNat_append, hb]
  rw [← Nat.shiftLeft_add_eq_or_of_lt (by omega), ← Nat.shiftLeft_add_eq_or_of_lt (by omega),
    ← Nat.shiftLeft_add_eq_or_of_lt (by simp), ← Nat.shiftLeft_add_eq_or_of_lt (by split <;> omega)]
  simp only [Nat.shiftLeft_eq]
  split <;> simp <;> omega

@[simp] theorem opField_cmdWord (op : BitVec 4) (arg : Half) (dev? : Option DevId) :
    opField (cmdWord op arg dev?) = op := by
  apply BitVec.eq_of_toNat_eq
  have := op.isLt
  have ha := arg.isLt
  have hd := (dev?.getD 0).isLt
  simp only [opField, BitVec.extractLsb'_toNat, cmdWord_toNat, Nat.shiftRight_eq_div_pow]
  split <;> omega

@[simp] theorem argField_cmdWord (op : BitVec 4) (arg : Half) (dev? : Option DevId) :
    argField (cmdWord op arg dev?) = arg := by
  apply BitVec.eq_of_toNat_eq
  have := op.isLt
  have ha := arg.isLt
  have hd := (dev?.getD 0).isLt
  simp only [argField, BitVec.extractLsb'_toNat, cmdWord_toNat, Nat.shiftRight_eq_div_pow]
  split <;> omega

@[simp] theorem devOperand_cmdWord (op : BitVec 4) (arg : Half) (dev? : Option DevId) :
    devOperand (cmdWord op arg dev?) = dev? := by
  have := op.isLt
  have ha := arg.isLt
  have hd := (dev?.getD 0).isLt
  have h1 : dpField (cmdWord op arg dev?) = dev?.isSome := by
    simp only [dpField, BitVec.getLsbD, cmdWord_toNat, Nat.testBit_eq_decide_div_mod_eq]
    cases dev? <;> simp at hd ⊢ <;> omega
  have h2 : devField (cmdWord op arg dev?) = dev?.getD 0 := by
    apply BitVec.eq_of_toNat_eq
    simp only [devField, BitVec.extractLsb'_toNat, cmdWord_toNat, Nat.shiftRight_eq_div_pow]
    split <;> omega
  cases dev? <;> simp [devOperand, h1, h2]

/-- Everything decoding a delivery can give: a frame-shaped chunk its row, any other chunk the `deliver` row. -/
theorem decodeDelivery_cases (chunk : List Byte) (now : Timestamp) :
    (frameShaped chunk = true ∧ ∃ cls d2 d3 d4 d5 d6 d7 ck,
      chunk = otherClassBytes cls d2 d3 d4 d5 d6 d7 ck ∧
      decodeDelivery chunk now = classifyFrame cls d2 d3 d4 d5 d6 d7 ck now) ∨
    (frameShaped chunk = false ∧ decodeDelivery chunk now = .deliver chunk now) := by
  unfold frameShaped
  split
  · rename_i h cls d2 d3 d4 d5 d6 d7 ck t
    by_cases h1 : h = headMarker
    · by_cases h2 : t = tailMarker
      · subst h1 h2
        exact .inl ⟨rfl, cls, d2, d3, d4, d5, d6, d7, ck, rfl, rfl⟩
      · have hd : decodeFrame [h, cls, d2, d3, d4, d5, d6, d7, ck, t] now = .error .noTail := by
          simp only [decodeFrame]
          rw [if_neg (not_not_intro h1), if_pos h2]
        exact .inr ⟨by rw [beq_eq_false_iff_ne.mpr h2, Bool.and_false], by simp only [decodeDelivery, hd]⟩
    · have hd : decodeFrame [h, cls, d2, d3, d4, d5, d6, d7, ck, t] now = .error .noHead := by
        simp only [decodeFrame]
        rw [if_pos h1]
      exact .inr ⟨by rw [beq_eq_false_iff_ne.mpr h1, Bool.false_and], by simp only [decodeDelivery, hd]⟩
  · rename_i hne
    have h : decodeFrame chunk now = .error .wrongLength := by
      unfold decodeFrame
      split
      · exact (hne _ _ _ _ _ _ _ _ _ _ rfl).elim
      · rfl
    exact .inr ⟨rfl, by simp only [decodeDelivery, h]⟩

/-- A chunk that is no whole frame is the `deliver` row. -/
theorem decodeDelivery_of_not_frameShaped {chunk : List Byte} (h : frameShaped chunk = false) (now : Timestamp) :
    decodeDelivery chunk now = .deliver chunk now := by
  obtain ⟨h', -⟩ | ⟨-, h'⟩ := decodeDelivery_cases chunk now
  · rw [h'] at h; cases h
  · exact h'

/-- The rows of a frame by its class and sub-command, encoded again, give its bytes. -/
theorem encode_classifyFrame (cls d2 d3 d4 d5 d6 d7 ck : Byte) (now : Timestamp) :
    encode (classifyFrame cls d2 d3 d4 d5 d6 d7 ck now) =
      .deliver (otherClassBytes cls d2 d3 d4 d5 d6 d7 ck) now := by
  unfold classifyFrame
  repeat' split
  all_goals
    simp only [encode, measurementBytes, ackBytes, otherClassBytes, lo8_u16le, hi8_u16le, *]

end Sys2Proof
end

