-- ==== Sys2Proof/Laws/State.lean ====
section
/-! SUPPORT. One lemma per field and update of State, so that no later proof unfolds a record update. -/

namespace Sys2Proof.Machine

@[simp] theorem State.withDevid_params (s : State) (v : DevId) : (s.withDevid v).params = s.params := rfl
@[simp] theorem State.withDevid_devid (s : State) (v : DevId) : (s.withDevid v).devid = v := rfl
@[simp] theorem State.withDevid_buf (s : State) (v : DevId) : (s.withDevid v).buf = s.buf := rfl
@[simp] theorem State.withDevid_pending (s : State) (v : DevId) : (s.withDevid v).pending = s.pending := rfl
@[simp] theorem State.withDevid_tx (s : State) (v : DevId) : (s.withDevid v).tx = s.tx := rfl
@[simp] theorem State.withDevid_ev (s : State) (v : DevId) : (s.withDevid v).ev = s.ev := rfl
@[simp] theorem State.withDevid_st (s : State) (v : DevId) : (s.withDevid v).st = s.st := rfl

@[simp] theorem State.withBuf_params (s : State) (b : List Byte) : (s.withBuf b).params = s.params := rfl
@[simp] theorem State.withBuf_devid (s : State) (b : List Byte) : (s.withBuf b).devid = s.devid := rfl
@[simp] theorem State.withBuf_buf (s : State) (b : List Byte) : (s.withBuf b).buf = b := rfl
@[simp] theorem State.withBuf_pending (s : State) (b : List Byte) : (s.withBuf b).pending = s.pending := rfl
@[simp] theorem State.withBuf_tx (s : State) (b : List Byte) : (s.withBuf b).tx = s.tx := rfl
@[simp] theorem State.withBuf_ev (s : State) (b : List Byte) : (s.withBuf b).ev = s.ev := rfl
@[simp] theorem State.withBuf_st (s : State) (b : List Byte) : (s.withBuf b).st = s.st := rfl

@[simp] theorem State.withPending_params (s : State) (ts : List Transaction) : (s.withPending ts).params = s.params := rfl
@[simp] theorem State.withPending_devid (s : State) (ts : List Transaction) : (s.withPending ts).devid = s.devid := rfl
@[simp] theorem State.withPending_buf (s : State) (ts : List Transaction) : (s.withPending ts).buf = s.buf := rfl
@[simp] theorem State.withPending_pending (s : State) (ts : List Transaction) : (s.withPending ts).pending = ts := rfl
@[simp] theorem State.withPending_tx (s : State) (ts : List Transaction) : (s.withPending ts).tx = s.tx := rfl
@[simp] theorem State.withPending_ev (s : State) (ts : List Transaction) : (s.withPending ts).ev = s.ev := rfl
@[simp] theorem State.withPending_st (s : State) (ts : List Transaction) : (s.withPending ts).st = s.st := rfl

@[simp] theorem State.finish_params (s : State) (tx : Option (List Byte)) (ev : Option Event) (st : Status) : (s.finish tx ev st).params = s.params := rfl
@[simp] theorem State.finish_devid (s : State) (tx : Option (List Byte)) (ev : Option Event) (st : Status) : (s.finish tx ev st).devid = s.devid := rfl
@[simp] theorem State.finish_buf (s : State) (tx : Option (List Byte)) (ev : Option Event) (st : Status) : (s.finish tx ev st).buf = s.buf := rfl
@[simp] theorem State.finish_pending (s : State) (tx : Option (List Byte)) (ev : Option Event) (st : Status) : (s.finish tx ev st).pending = s.pending := rfl
@[simp] theorem State.finish_tx (s : State) (tx : Option (List Byte)) (ev : Option Event) (st : Status) : (s.finish tx ev st).tx = tx := rfl
@[simp] theorem State.finish_ev (s : State) (tx : Option (List Byte)) (ev : Option Event) (st : Status) : (s.finish tx ev st).ev = ev := rfl
@[simp] theorem State.finish_st (s : State) (tx : Option (List Byte)) (ev : Option Event) (st : Status) : (s.finish tx ev st).st = some st := rfl

/-- The target of a command that names one (R101). -/
@[simp] theorem State.target_some (s : State) (v : DevId) : s.target (some v) = v := rfl

/-- The target of a command that names none (R101). -/
@[simp] theorem State.target_none (s : State) : s.target none = s.devid := rfl

theorem State.fetch_nil {s : State} (h : s.pending = []) : s.fetch = none := by
  simp [State.fetch, h]

theorem State.fetch_cons {s : State} {t : Transaction} {rest : List Transaction} (h : s.pending = t :: rest) :
    s.fetch = some (t, s.withPending rest) := by
  simp [State.fetch, h]

end Sys2Proof.Machine
end

