-- ==== Sys2Proof/Laws/Framer.lean ====
section
/-! SUPPORT. The buffer primitives and the delivery: what each can do, said once. -/

namespace Sys2Proof.Machine

/-! ## Resynchronisation -/

theorem syncCount_le (b : List Byte) : syncCount b ≤ b.length := List.findIdx_le_length

/-- Bytes that hold no head marker are counted and skipped. -/
theorem syncCount_append {pre b : List Byte} (h : headMarker ∉ pre) :
    syncCount (pre ++ b) = pre.length + syncCount b := by
  induction pre with
  | nil => simp
  | cons x pre ih =>
    simp only [List.mem_cons, not_or] at h
    have hx : (x == headMarker) = false := by simpa using fun e => h.1 e.symm
    have := ih h.2
    simp only [syncCount] at this ⊢
    simp only [List.cons_append, List.findIdx_cons, hx, cond_false, this, List.length_cons]
    omega

/-- An empty or head-led buffer is left alone. -/
theorem syncCount_aligned {b : List Byte} (h : ∀ x, b.head? = some x → x = headMarker) : syncCount b = 0 := by
  cases b with
  | nil => rfl
  | cons x b => simp [syncCount, List.findIdx_cons, h x rfl]

/-- What resynchronisation does to a buffer in its two parts: the bytes before the first head marker, and the rest. -/
theorem resync_append {pre b : List Byte} (h : headMarker ∉ pre) (hb : ∀ x, b.head? = some x → x = headMarker) :
    syncCount (pre ++ b) = pre.length ∧ resync (pre ++ b) = b := by
  have hc : syncCount (pre ++ b) = pre.length := by rw [syncCount_append h, syncCount_aligned hb]; rfl
  exact ⟨hc, by rw [resync, hc]; simp⟩

/-- Every buffer has those two parts. -/
theorem exists_sync_parts (b : List Byte) :
    ∃ pre, b = pre ++ resync b ∧ headMarker ∉ pre ∧ pre.length = syncCount b ∧
      ∀ x, (resync b).head? = some x → x = headMarker := by
  induction b with
  | nil => exact ⟨[], rfl, by simp, rfl, by simp [resync]⟩
  | cons x b ih =>
    by_cases hx : x = headMarker
    · have ha : ∀ y, (x :: b).head? = some y → y = headMarker := by
        intro y hy
        cases hy
        exact hx
      have h0 : syncCount (x :: b) = 0 := syncCount_aligned ha
      have hr : resync (x :: b) = x :: b := by rw [resync, h0, List.drop_zero]
      exact ⟨[], by rw [hr, List.nil_append], by simp, by rw [h0]; rfl, by rw [hr]; exact ha⟩
    · obtain ⟨pre, he, hn, hl, ha⟩ := ih
      have hx' : headMarker ∉ [x] := by simpa using Ne.symm hx
      have hc : syncCount (x :: b) = syncCount b + 1 := by
        have := syncCount_append (b := b) hx'
        simpa [Nat.add_comm] using this
      have hr : resync (x :: b) = resync b := by simp [resync, hc]
      refine ⟨x :: pre, by rw [hr, List.cons_append, ← he], ?_, by simp [hl, hc], by rw [hr]; exact ha⟩
      rw [List.mem_cons, not_or]
      exact ⟨Ne.symm hx, hn⟩

/-- Nothing is lost but the counted bytes. -/
theorem length_resync (b : List Byte) : (resync b).length + syncCount b = b.length := by
  have := syncCount_le b
  simp only [resync, List.length_drop]
  omega

/-! ## The frame window -/

theorem memReadFrame_short {b : List Byte} (h : b.length < 10) : memReadFrame b = none := by
  match b, h with
  | [], _ => rfl
  | [_], _ => rfl
  | [_, _], _ => rfl
  | [_, _, _], _ => rfl
  | [_, _, _, _], _ => rfl
  | [_, _, _, _, _], _ => rfl
  | [_, _, _, _, _, _], _ => rfl
  | [_, _, _, _, _, _, _], _ => rfl
  | [_, _, _, _, _, _, _, _], _ => rfl
  | [_, _, _, _, _, _, _, _, _], _ => rfl
  | _ :: _ :: _ :: _ :: _ :: _ :: _ :: _ :: _ :: _ :: _, h => simp at h; omega

/-- Ten bytes or more are a frame and the bytes after it. -/
theorem exists_frame {b : List Byte} (h : 10 ≤ b.length) :
    ∃ f0 f1 f2 f3 f4 f5 f6 f7 f8 f9 rest, b = f0 :: f1 :: f2 :: f3 :: f4 :: f5 :: f6 :: f7 :: f8 :: f9 :: rest := by
  match b, h with
  | f0 :: f1 :: f2 :: f3 :: f4 :: f5 :: f6 :: f7 :: f8 :: f9 :: rest, _ =>
    exact ⟨f0, f1, f2, f3, f4, f5, f6, f7, f8, f9, rest, rfl⟩

theorem memReadFrame_none_iff {b : List Byte} : memReadFrame b = none ↔ b.length < 10 := by
  constructor
  · intro h
    by_contra hn
    obtain ⟨_, _, _, _, _, _, _, _, _, _, _, rfl⟩ := exists_frame (Nat.le_of_not_lt hn)
    simp [memReadFrame] at h
  · exact memReadFrame_short

/-! ## The interpreter -/

/-- The interpreter writes the device id and the three ports, nothing else. -/
theorem interpret_frame (f : RxFrame) (now : Timestamp) (d : Nat) (s : State) :
    (interpret f now d s).params = s.params ∧ (interpret f now d s).buf = s.buf ∧
      (interpret f now d s).pending = s.pending ∧ (interpret f now d s).tx = none := by
  simp only [interpret, interpretMeasurement, interpretAck, interpretUnknownClass]
  split
  · simp
  · split
    · split <;> simp
    · simp

/-- The interpreter reports `OK` with the delivery's count and one of its four results. -/
theorem interpret_status (f : RxFrame) (now : Timestamp) (d : Nat) (s : State) :
    ∃ r, (interpret f now d s).st = some ⟨.ok, d, some r⟩ := by
  simp only [interpret, interpretMeasurement, interpretAck, interpretUnknownClass, statusValidated]
  split
  · simp
  · split
    · split <;> simp
    · simp

/-! ## The delivery -/

/-- Everything steps 3 to 5 can do to a resynchronised buffer. -/
theorem frameBuffer_cases (b : List Byte) (now : Timestamp) (d : Nat) (s : State) :
    (b.length < 10 ∧ frameBuffer b now d s = (s.withBuf b).finish none none (statusOf .short d)) ∨
    ∃ f, memReadFrame b = some f ∧
      ((frameCheck f = .badChecksum ∧
          frameBuffer b now d s = (s.withBuf (b.drop 10)).finish none none (statusOf .badChecksum d)) ∨
       (frameCheck f = .badTail ∧
          frameBuffer b now d s = (s.withBuf (b.drop 10)).finish none none (statusOf .badTail d)) ∨
       (frameCheck f = .valid ∧ frameBuffer b now d s = interpret f now d (s.withBuf []))) := by
  unfold frameBuffer
  cases hm : memReadFrame b with
  | none => exact .inl ⟨memReadFrame_none_iff.mp hm, rfl⟩
  | some f =>
    refine .inr ⟨f, rfl, ?_⟩
    cases hc : frameCheck f <;> simp [hc, dropFrame, rxLen]

/-- A delivery within capacity completes. -/
theorem deliverChunk_next {chunk : List Byte} {now : Timestamp} {s : State} (h : overflows s chunk = false) :
    deliverChunk chunk now s =
      .next (frameBuffer (resync (s.buf ++ chunk)) now (syncCount (s.buf ++ chunk)) s) := by
  simp [deliverChunk, h, appendChunk]

/-- A delivery beyond it faults. -/
theorem deliverChunk_fault {chunk : List Byte} {now : Timestamp} {s : State} (h : overflows s chunk = true) :
    deliverChunk chunk now s = .fault (.bufOverflow s.buf.length chunk.length) := by
  simp [deliverChunk, h, raiseOverflow]

/-- What a delivery that answered a next state did. -/
theorem deliverChunk_inv {chunk : List Byte} {now : Timestamp} {s t : State} (h : deliverChunk chunk now s = .next t) :
    overflows s chunk = false ∧ t = frameBuffer (resync (s.buf ++ chunk)) now (syncCount (s.buf ++ chunk)) s := by
  cases ho : overflows s chunk with
  | true => rw [deliverChunk_fault ho] at h; cases h
  | false => rw [deliverChunk_next ho] at h; cases h; exact ⟨rfl, rfl⟩

end Sys2Proof.Machine
end

