-- ==== Sys2Proof/Laws/Memory.lean ====
section
/-! SUPPORT. Every buffer operation keeps the buffer within capacity (log 5). -/

namespace Sys2Proof.Machine

/-- A shorter buffer is within capacity where a longer one is. -/
theorem memory_wf_of_length_le {p : Params} {b b' : List Byte} (h : b'.length ≤ b.length)
    (hb : Memory.wf p b = true) : Memory.wf p b' = true := by
  unfold Memory.wf at *
  split at hb <;> simp_all
  omega

/-- R42 under the guard of R141. -/
theorem memory_wf_appendChunk {s : State} {chunk : List Byte} (h : overflows s chunk = false) :
    Memory.wf s.params (appendChunk s.buf chunk) = true := by
  unfold overflows at h
  unfold Memory.wf appendChunk
  split <;> simp_all

/-- R43. -/
theorem memory_wf_resync {p : Params} {b : List Byte} (h : Memory.wf p b = true) :
    Memory.wf p (resync b) = true :=
  memory_wf_of_length_le (by have := length_resync b; omega) h

/-- R44. -/
theorem memory_wf_dropFrame {p : Params} {b : List Byte} (h : Memory.wf p b = true) :
    Memory.wf p (dropFrame b) = true :=
  memory_wf_of_length_le (by simp [dropFrame]) h

/-- R45. -/
theorem memory_wf_clear (p : Params) : Memory.wf p [] = true := by
  unfold Memory.wf
  split <;> simp

/-- Steps 3 to 5 leave a buffer no longer than the one they ran on. -/
theorem length_frameBuffer_le (b : List Byte) (now : Timestamp) (d : Nat) (s : State) :
    (frameBuffer b now d s).buf.length ≤ b.length := by
  obtain ⟨-, h⟩ | ⟨f, -, ⟨-, h⟩ | ⟨-, h⟩ | ⟨-, h⟩⟩ := frameBuffer_cases b now d s <;>
    simp [h, (interpret_frame _ _ _ _).2.1]

theorem reset_memory_wf : Memory.wf State.reset.params State.reset.buf = true := by decide

end Sys2Proof.Machine
end

