-- ==== Sys2Proof/Laws/Exec.lean ====
section
/-! SUPPORT. The deliveries and commands in the terms claims are stated in. -/

namespace Sys2Proof.Machine

theorem overflows_eq_false_iff {s : State} {chunk : List Byte} : overflows s chunk = false ↔ fits s chunk := by
  unfold overflows fits
  cases s.params.bufCap <;> simp

/-- A delivery that fits, on a buffer split at its first head marker. -/
theorem exec_deliver_parts {chunk pre b : List Byte} {now : Timestamp} {s : State} (hf : fits s chunk)
    (he : s.buf ++ chunk = pre ++ b) (hp : headMarker ∉ pre) (hb : aligned b) :
    exec (.deliver chunk now) s = .next (frameBuffer b now pre.length s) := by
  have h : exec (.deliver chunk now) s = deliverChunk chunk now s := rfl
  obtain ⟨hc, hr⟩ := resync_append hp hb
  rw [h, deliverChunk_next (overflows_eq_false_iff.mpr hf), he, hc, hr]

/-- What a delivery that answered a next state did, on the parts of its buffer. -/
theorem exec_deliver_inv {chunk : List Byte} {now : Timestamp} {s t : State}
    (h : exec (.deliver chunk now) s = .next t) :
    fits s chunk ∧ ∃ pre b, s.buf ++ chunk = pre ++ b ∧ headMarker ∉ pre ∧ aligned b ∧
      t = frameBuffer b now pre.length s := by
  obtain ⟨ho, rfl⟩ := deliverChunk_inv (show deliverChunk chunk now s = .next t from h)
  obtain ⟨pre, he, hn, hl, ha⟩ := exists_sync_parts (s.buf ++ chunk)
  exact ⟨overflows_eq_false_iff.mp ho, pre, _, he, hn, ha, by rw [hl]⟩

/-- An empty buffer of a legal instance takes any one frame. -/
theorem fits_one_frame {s : State} {chunk : List Byte} (hb : s.buf = []) (hl : s.params.legal = true)
    (hc : chunk.length ≤ 10) : fits s chunk := by
  intro c h
  simp only [Params.legal, h, decide_eq_true_eq] at hl
  simp only [hb, List.length_nil]
  omega

/-- The interpreter, on the bytes of its frame. -/
theorem interpret_eq_interpreted (f0 f1 f2 f3 f4 f5 f6 f7 f8 f9 : Byte) (rest : List Byte) (now : Timestamp) (d : Nat)
    (s : State) :
    interpret ⟨f0, f1, f2, f3, f4, f5, f6, f7, f8, f9⟩ now d (s.withBuf []) =
      interpreted (f0 :: f1 :: f2 :: f3 :: f4 :: f5 :: f6 :: f7 :: f8 :: f9 :: rest) now d s := by
  simp only [interpret, interpreted, byteAt, List.getD_cons_zero, List.getD_cons_succ, measurementClass, ackClass]
  split
  · rfl
  · split
    · have : ackSubcmds.contains f2 = true ↔ f2 ∈ [2, 5, 6, 7, 8] := by simp
      simp only [interpretAck]
      by_cases hm : f2 ∈ [2, 5, 6, 7, 8]
      · rw [if_pos (this.mpr hm), if_pos hm]; rfl
      · rw [if_neg (fun h => hm (this.mp h)), if_neg hm]; rfl
    · rfl

/-- Steps 3 to 5 on ten bytes and the bytes after them, as the pseudocode of R147 has it. -/
theorem frameBuffer_ten (f0 f1 f2 f3 f4 f5 f6 f7 f8 f9 : Byte) (rest : List Byte) (now : Timestamp) (d : Nat)
    (s : State) :
    frameBuffer (f0 :: f1 :: f2 :: f3 :: f4 :: f5 :: f6 :: f7 :: f8 :: f9 :: rest) now d s =
      if checksum [f2, f3, f4, f5, f6, f7] ≠ f8 then
        { s with buf := rest, tx := none, ev := none, st := some ⟨.badChecksum, d, none⟩ }
      else if f9 ≠ tailMarker then
        { s with buf := rest, tx := none, ev := none, st := some ⟨.badTail, d, none⟩ }
      else interpreted [f0, f1, f2, f3, f4, f5, f6, f7, f8, f9] now d s := by
  have hm : memReadFrame (f0 :: f1 :: f2 :: f3 :: f4 :: f5 :: f6 :: f7 :: f8 :: f9 :: rest) =
      some ⟨f0, f1, f2, f3, f4, f5, f6, f7, f8, f9⟩ := rfl
  have hk : frameCheck ⟨f0, f1, f2, f3, f4, f5, f6, f7, f8, f9⟩ =
      if checksum [f2, f3, f4, f5, f6, f7] ≠ f8 then .badChecksum
      else if f9 ≠ tailMarker then .badTail else .valid := rfl
  by_cases hc : checksum [f2, f3, f4, f5, f6, f7] ≠ f8
  · rw [if_pos hc] at hk
    rw [if_pos hc]
    simp only [frameBuffer, hm, hk]
    rfl
  · rw [if_neg hc] at hk
    rw [if_neg hc]
    by_cases ht : f9 ≠ tailMarker
    · rw [if_pos ht] at hk
      rw [if_pos ht]
      simp only [frameBuffer, hm, hk]
      rfl
    · rw [if_neg ht] at hk
      rw [if_neg ht, ← interpret_eq_interpreted _ _ _ _ _ _ _ _ _ _ []]
      simp only [frameBuffer, hm, hk]

/-- Whatever row a delivery decodes to, it is run as the delivery of its chunk (log 4). -/
theorem exec_decode_deliver (chunk : List Byte) (now : Timestamp) (s : State) :
    exec (decode (.deliver chunk now)) s = deliverChunk chunk now s := by
  have h : decode (.deliver chunk now) = decodeDelivery chunk now := rfl
  rw [h]
  obtain ⟨-, cls, d2, d3, d4, d5, d6, d7, ck, rfl, h⟩ | ⟨-, h⟩ := decodeDelivery_cases chunk now
  · rw [h]
    unfold classifyFrame
    repeat' split
    all_goals
      simp only [exec, execRxMeasurement, execRxAckReportingMode, execRxAckDeviceId, execRxAckSleepWork,
        execRxAckFirmwareVersion, execRxAckWorkingPeriod, execRxAckUnrecognised, execRxUnknownClass,
        measurementBytes, ackBytes, otherClassBytes, lo8_u16le, hi8_u16le, *]
  · rw [h]; rfl

/-- Everything a command word can do, by its `OP`: emit one frame, or be turned away as reserved or out of range. -/
theorem exec_cmd_cases (W : BitVec 40) (s : State) :
    (∃ p0 p1 p2 p6 p7, p0 ∈ [(2 : Byte), 4, 5, 6, 7, 8] ∧ (W.extractLsb' 36 4 ≠ 3#4 → p6 = 0 ∧ p7 = 0) ∧
      exec (decode (.cmd W)) s = emitCommand p0 p1 p2 p6 p7 (wordTarget W) s) ∨
    (exec (decode (.cmd W)) s = rejectCommand .badOp s ∧ 12 ≤ (opField W).toNat) ∨
    (exec (decode (.cmd W)) s = rejectCommand .badArg s ∧ s.params.periodCheck ≠ .noCheck) := by
  have ht : wordTarget W = devOperand W := rfl
  simp only [decode, decodeCmd, ht]
  split <;> rename_i h <;> simp only [exec]
  case h_4 => exact .inl ⟨_, _, _, _, _, by decide, fun hn => absurd (BitVec.eq_of_toNat_eq h) hn, rfl⟩
  case h_7 =>
    simp only [execSetWorkingPeriod]
    split
    · exact .inl ⟨_, _, _, _, _, by decide, fun _ => ⟨rfl, rfl⟩, rfl⟩
    · rename_i hp
      exact .inr (.inr ⟨rfl, fun hc => by simp [periodOk, hc] at hp⟩)
  case h_13 => exact .inr (.inl ⟨rfl, by omega⟩)
  case h_14 => exact .inr (.inl ⟨rfl, by omega⟩)
  case h_15 => exact .inr (.inl ⟨rfl, by omega⟩)
  case h_16 =>
    refine .inr (.inl ⟨rfl, ?_⟩)
    simp only [imp_false] at *
    omega
  all_goals exact .inl ⟨_, _, _, _, _, by decide, fun _ => ⟨rfl, rfl⟩, rfl⟩

/-- A control code's effect. -/
theorem exec_ctrl_cases (code : BitVec 1) (s : State) :
    (code = 0 ∧ exec (decode (.ctrl code)) s =
      .next { s with buf := [], tx := none, ev := none, st := some ⟨.ok, 0, none⟩ }) ∨
    (code = 1 ∧ exec (decode (.ctrl code)) s =
      .next { s with devid := broadcast, buf := [], tx := none, ev := none, st := some ⟨.ok, 0, none⟩ }) := by
  rcases (by revert code; decide : code = 0 ∨ code = 1) with rfl | rfl
  · exact .inl ⟨rfl, rfl⟩
  · exact .inr ⟨rfl, rfl⟩

/-- An accepted command writes the ports alone. -/
theorem emitCommand_next (sub flag value new6 new7 : Byte) (dev? : Option DevId) (s : State) :
    emitCommand sub flag value new6 new7 dev? s =
      .next { s with
        tx := some (outboundFrame sub flag value new6 new7 (dev?.getD s.devid)), ev := none
        st := some ⟨.ok, 0, none⟩ } := rfl

/-- So does one turned away. -/
theorem rejectCommand_next (code : StatusCode) (s : State) :
    rejectCommand code s = .next { s with tx := none, ev := none, st := some ⟨code, 0, none⟩ } := rfl

/-- Steps 3 to 5 leave the parameters and the host's sequence alone, and emit no frame. -/
theorem frameBuffer_frame (b : List Byte) (now : Timestamp) (d : Nat) (s : State) :
    (frameBuffer b now d s).params = s.params ∧ (frameBuffer b now d s).pending = s.pending ∧
      (frameBuffer b now d s).tx = none := by
  obtain ⟨-, h⟩ | ⟨f, -, ⟨-, h⟩ | ⟨-, h⟩ | ⟨-, h⟩⟩ := frameBuffer_cases b now d s <;>
    simp [h, interpret_frame]

end Sys2Proof.Machine
end

