-- ==== Sys2Proof/Laws/PerInstr.lean ====
section
/-! SUPPORT. Per instruction: a well-formed instruction encodes to a transaction that its own row of
spec/opcode_table.json matches, with the row's side conditions. -/

namespace Sys2Proof.Laws

open Sys2Proof Sys2Proof.Machine

/-- The `match` and `mask` columns of a row, by port. A frame's are its ten bytes, `f[0]` first. -/
inductive TableRow where
  | cmd (value mask : BitVec 40)
  | ctrl (value mask : BitVec 1)
  | frame (value mask : List Byte)
  | chunk

/-- The row's test on a transaction. -/
def TableRow.matches : TableRow → Transaction → Prop
  | .cmd value mask, .cmd W => W &&& mask = value
  | .ctrl value mask, .ctrl code => code &&& mask = value
  | .frame value mask, .deliver bytes _ => bytes.length = 10 ∧ List.zipWith (· &&& ·) bytes mask = value
  | .chunk, .deliver _ _ => True
  | _, _ => False

/-- The `mask` of the command rows. -/
abbrev opMask : BitVec 40 := 0xF000000000

/-- The row of an instruction, as the table writes it. -/
def rowOf : Instr → TableRow
  | .setDataReportingMode _ _ => .cmd 0x0000000000 opMask
  | .getDataReportingMode _ => .cmd 0x1000000000 opMask
  | .queryData _ => .cmd 0x2000000000 opMask
  | .setDeviceId _ _ => .cmd 0x3000000000 opMask
  | .setStatus _ _ => .cmd 0x4000000000 opMask
  | .getStatus _ => .cmd 0x5000000000 opMask
  | .setWorkingPeriod _ _ => .cmd 0x6000000000 opMask
  | .getWorkingPeriod _ => .cmd 0x7000000000 opMask
  | .checkFirmwareVersion _ => .cmd 0x8000000000 opMask
  | .forceActiveMode _ => .cmd 0x9000000000 opMask
  | .forceQueryMode _ => .cmd 0xA000000000 opMask
  | .forceContinuousWorkingPeriod _ => .cmd 0xB000000000 opMask
  | .reservedOpC => .cmd 0xC000000000 opMask
  | .reservedOpD => .cmd 0xD000000000 opMask
  | .reservedOpE => .cmd 0xE000000000 opMask
  | .reservedOpF => .cmd 0xF000000000 opMask
  | .deliver _ _ => .chunk
  | .clearBuffer => .ctrl 0 1
  | .reset => .ctrl 1 1
  | .rxMeasurement _ _ _ _ _ =>
    .frame [0xAA, 0xC0, 0, 0, 0, 0, 0, 0, 0, 0xAB] [0xFF, 0xFF, 0, 0, 0, 0, 0, 0, 0, 0xFF]
  | .rxAckReportingMode _ _ _ _ _ _ =>
    .frame [0xAA, 0xC5, 0x02, 0, 0, 0, 0, 0, 0, 0xAB] [0xFF, 0xFF, 0xFF, 0, 0, 0, 0, 0, 0, 0xFF]
  | .rxAckDeviceId _ _ _ _ _ _ =>
    .frame [0xAA, 0xC5, 0x05, 0, 0, 0, 0, 0, 0, 0xAB] [0xFF, 0xFF, 0xFF, 0, 0, 0, 0, 0, 0, 0xFF]
  | .rxAckSleepWork _ _ _ _ _ _ =>
    .frame [0xAA, 0xC5, 0x06, 0, 0, 0, 0, 0, 0, 0xAB] [0xFF, 0xFF, 0xFF, 0, 0, 0, 0, 0, 0, 0xFF]
  | .rxAckFirmwareVersion _ _ _ _ _ _ =>
    .frame [0xAA, 0xC5, 0x07, 0, 0, 0, 0, 0, 0, 0xAB] [0xFF, 0xFF, 0xFF, 0, 0, 0, 0, 0, 0, 0xFF]
  | .rxAckWorkingPeriod _ _ _ _ _ _ =>
    .frame [0xAA, 0xC5, 0x08, 0, 0, 0, 0, 0, 0, 0xAB] [0xFF, 0xFF, 0xFF, 0, 0, 0, 0, 0, 0, 0xFF]
  | .rxAckUnrecognised _ _ _ _ _ _ _ =>
    .frame [0xAA, 0xC5, 0, 0, 0, 0, 0, 0, 0, 0xAB] [0xFF, 0xFF, 0, 0, 0, 0, 0, 0, 0, 0xFF]
  | .rxUnknownClass _ _ _ _ _ _ _ _ _ =>
    .frame [0xAA, 0, 0, 0, 0, 0, 0, 0, 0, 0xAB] [0xFF, 0, 0, 0, 0, 0, 0, 0, 0, 0xFF]

/-- The side conditions of the rows whose `match` alone does not single them out, on the transaction's bytes. -/
def sideCondition (i : Instr) : Prop :=
  match i, encode i with
  | .deliver _ _, .deliver chunk _ => ¬ (chunk.length = 10 ∧ chunk.head? = some 0xAA ∧ chunk.getLast? = some 0xAB)
  | .rxAckUnrecognised _ _ _ _ _ _ _, .deliver chunk _ => ∀ b, chunk[2]? = some b → b ∉ [(2 : Byte), 5, 6, 7, 8]
  | .rxUnknownClass _ _ _ _ _ _ _ _ _, .deliver chunk _ => ∀ b, chunk[1]? = some b → b ≠ 0xC0 ∧ b ≠ 0xC5
  | _, _ => True

/-- A well-formed instruction's own row, and its side condition, hold of its encoding. -/
def MatchesTable.Statement (i : Instr) : Prop :=
  i.wf = true → (rowOf i).matches (encode i) ∧ sideCondition i

/-- The `OP` bits of an assembled word, in place. -/
theorem cmdWord_and_opMask (op : BitVec 4) (arg : Half) (dev? : Option DevId) :
    cmdWord op arg dev? &&& opMask = op.setWidth 40 <<< 36 := by
  have h := opField_cmdWord op arg dev?
  generalize cmdWord op arg dev? = W at h
  subst h
  apply BitVec.eq_of_getLsbD_eq
  intro k hk
  have hm : opMask.getLsbD k = decide (36 ≤ k) := by revert hk; revert k; decide
  rw [BitVec.getLsbD_and, hm]
  simp only [opField, BitVec.getLsbD_shiftLeft, BitVec.getLsbD_setWidth, BitVec.getLsbD_extractLsb', hk, decide_true,
    Bool.true_and]
  by_cases h : 36 ≤ k
  · have h1 : k - 36 < 40 := by omega
    have h2 : k - 36 < 4 := by omega
    have h3 : 36 + (k - 36) = k := by omega
    simp [h, h1, h2, h3]
  · simp [h, Nat.lt_of_not_le h]

/-- The zero and one bytes of a frame's mask. -/
theorem zipWith_mask_head_class (a b c d e f g h i j : Byte) :
    List.zipWith (· &&& ·) [a, b, c, d, e, f, g, h, i, j] [(0xFF : Byte), 0xFF, 0, 0, 0, 0, 0, 0, 0, 0xFF] =
      [a, b, 0, 0, 0, 0, 0, 0, 0, j] := by
  have hx : ∀ x : Byte, x &&& 255#8 = x := by decide
  simp [hx]

/-- The same where the sub-command is fixed too. -/
theorem zipWith_mask_sub (a b c d e f g h i j : Byte) :
    List.zipWith (· &&& ·) [a, b, c, d, e, f, g, h, i, j] [(0xFF : Byte), 0xFF, 0xFF, 0, 0, 0, 0, 0, 0, 0xFF] =
      [a, b, c, 0, 0, 0, 0, 0, 0, j] := by
  have hx : ∀ x : Byte, x &&& 255#8 = x := by decide
  simp [hx]

/-- The same where only the markers are fixed. -/
theorem zipWith_mask_markers (a b c d e f g h i j : Byte) :
    List.zipWith (· &&& ·) [a, b, c, d, e, f, g, h, i, j] [(0xFF : Byte), 0, 0, 0, 0, 0, 0, 0, 0, 0xFF] =
      [a, 0, 0, 0, 0, 0, 0, 0, 0, j] := by
  have hx : ∀ x : Byte, x &&& 255#8 = x := by decide
  simp [hx]

namespace MatchesTable

theorem setDataReportingMode (mode : ReportingMode) (dev? : Option DevId) :
    Statement (.setDataReportingMode mode dev?) :=
  fun _ => ⟨cmdWord_and_opMask _ _ _, trivial⟩

theorem getDataReportingMode (dev? : Option DevId) : Statement (.getDataReportingMode dev?) :=
  fun _ => ⟨cmdWord_and_opMask _ _ _, trivial⟩

theorem queryData (dev? : Option DevId) : Statement (.queryData dev?) :=
  fun _ => ⟨cmdWord_and_opMask _ _ _, trivial⟩

theorem setDeviceId (newId : DevId) (dev? : Option DevId) : Statement (.setDeviceId newId dev?) :=
  fun _ => ⟨cmdWord_and_opMask _ _ _, trivial⟩

theorem setStatus (mode : SleepWork) (dev? : Option DevId) : Statement (.setStatus mode dev?) :=
  fun _ => ⟨cmdWord_and_opMask _ _ _, trivial⟩

theorem getStatus (dev? : Option DevId) : Statement (.getStatus dev?) :=
  fun _ => ⟨cmdWord_and_opMask _ _ _, trivial⟩

theorem setWorkingPeriod (minutes : Half) (dev? : Option DevId) : Statement (.setWorkingPeriod minutes dev?) :=
  fun _ => ⟨cmdWord_and_opMask _ _ _, trivial⟩

theorem getWorkingPeriod (dev? : Option DevId) : Statement (.getWorkingPeriod dev?) :=
  fun _ => ⟨cmdWord_and_opMask _ _ _, trivial⟩

theorem checkFirmwareVersion (dev? : Option DevId) : Statement (.checkFirmwareVersion dev?) :=
  fun _ => ⟨cmdWord_and_opMask _ _ _, trivial⟩

theorem forceActiveMode (dev? : Option DevId) : Statement (.forceActiveMode dev?) :=
  fun _ => ⟨cmdWord_and_opMask _ _ _, trivial⟩

theorem forceQueryMode (dev? : Option DevId) : Statement (.forceQueryMode dev?) :=
  fun _ => ⟨cmdWord_and_opMask _ _ _, trivial⟩

theorem forceContinuousWorkingPeriod (dev? : Option DevId) : Statement (.forceContinuousWorkingPeriod dev?) :=
  fun _ => ⟨cmdWord_and_opMask _ _ _, trivial⟩

theorem reservedOpC : Statement .reservedOpC := fun _ => ⟨cmdWord_and_opMask _ _ _, trivial⟩

theorem reservedOpD : Statement .reservedOpD := fun _ => ⟨cmdWord_and_opMask _ _ _, trivial⟩

theorem reservedOpE : Statement .reservedOpE := fun _ => ⟨cmdWord_and_opMask _ _ _, trivial⟩

theorem reservedOpF : Statement .reservedOpF := fun _ => ⟨cmdWord_and_opMask _ _ _, trivial⟩

theorem deliver (chunk : List Byte) (now : Timestamp) : Statement (.deliver chunk now) := by
  intro h
  refine ⟨trivial, fun ⟨hl, hh, ht⟩ => ?_⟩
  match chunk, hl with
  | [a, _, _, _, _, _, _, _, _, j], _ =>
    cases hh
    cases ht
    simp [Instr.wf, frameShaped] at h

theorem clearBuffer : Statement .clearBuffer := fun _ => ⟨rfl, trivial⟩

theorem reset : Statement .reset := fun _ => ⟨rfl, trivial⟩

theorem rxMeasurement (pm25 pm10 : Half) (id : DevId) (ck : Byte) (now : Timestamp) :
    Statement (.rxMeasurement pm25 pm10 id ck now) :=
  fun _ => ⟨⟨rfl, zipWith_mask_head_class _ _ _ _ _ _ _ _ _ _⟩, trivial⟩

theorem rxAckReportingMode (d3 d4 d5 : Byte) (id : DevId) (ck : Byte) (now : Timestamp) :
    Statement (.rxAckReportingMode d3 d4 d5 id ck now) :=
  fun _ => ⟨⟨rfl, zipWith_mask_sub _ _ _ _ _ _ _ _ _ _⟩, trivial⟩

theorem rxAckDeviceId (d3 d4 d5 : Byte) (id : DevId) (ck : Byte) (now : Timestamp) :
    Statement (.rxAckDeviceId d3 d4 d5 id ck now) :=
  fun _ => ⟨⟨rfl, zipWith_mask_sub _ _ _ _ _ _ _ _ _ _⟩, trivial⟩

theorem rxAckSleepWork (d3 d4 d5 : Byte) (id : DevId) (ck : Byte) (now : Timestamp) :
    Statement (.rxAckSleepWork d3 d4 d5 id ck now) :=
  fun _ => ⟨⟨rfl, zipWith_mask_sub _ _ _ _ _ _ _ _ _ _⟩, trivial⟩

theorem rxAckFirmwareVersion (d3 d4 d5 : Byte) (id : DevId) (ck : Byte) (now : Timestamp) :
    Statement (.rxAckFirmwareVersion d3 d4 d5 id ck now) :=
  fun _ => ⟨⟨rfl, zipWith_mask_sub _ _ _ _ _ _ _ _ _ _⟩, trivial⟩

theorem rxAckWorkingPeriod (d3 d4 d5 : Byte) (id : DevId) (ck : Byte) (now : Timestamp) :
    Statement (.rxAckWorkingPeriod d3 d4 d5 id ck now) :=
  fun _ => ⟨⟨rfl, zipWith_mask_sub _ _ _ _ _ _ _ _ _ _⟩, trivial⟩

theorem rxAckUnrecognised (sub d3 d4 d5 : Byte) (id : DevId) (ck : Byte) (now : Timestamp) :
    Statement (.rxAckUnrecognised sub d3 d4 d5 id ck now) := by
  intro h
  refine ⟨⟨rfl, zipWith_mask_head_class _ _ _ _ _ _ _ _ _ _⟩, ?_⟩
  intro b hb
  cases hb
  simpa [Instr.wf] using h

theorem rxUnknownClass (cls d2 d3 d4 d5 d6 d7 ck : Byte) (now : Timestamp) :
    Statement (.rxUnknownClass cls d2 d3 d4 d5 d6 d7 ck now) := by
  intro h
  refine ⟨⟨rfl, zipWith_mask_markers _ _ _ _ _ _ _ _ _ _⟩, ?_⟩
  intro b hb
  cases hb
  simpa [Instr.wf] using h

end MatchesTable

end Sys2Proof.Laws
end

