-- ==== Sys2Proof/Laws/Step.lean ====
section
/-! SUPPORT. What one step can do, said once. -/

namespace Sys2Proof.Machine

theorem step_nil {s : State} (h : s.pending = []) : step s = .refused .noTransaction := by
  simp [step, State.fetch_nil h]

theorem step_cons {s : State} {t : Transaction} {rest : List Transaction} (h : s.pending = t :: rest) :
    step s = exec (decode t) (s.withPending rest) := by
  simp [step, State.fetch_cons h]

/-- A step that answered ran the head of the host's sequence. -/
theorem step_inv {s s' : State} (h : step s = .next s') :
    ∃ t rest, s.pending = t :: rest ∧ exec (decode t) (s.withPending rest) = .next s' := by
  cases hp : s.pending with
  | nil => rw [step_nil hp] at h; cases h
  | cons t rest => exact ⟨t, rest, rfl, by rw [← step_cons hp, h]⟩

end Sys2Proof.Machine
end

