-- ==== Sys2Proof/Tests/Slice0.lean ====
section
/-! SUPPORT. The model's own tests. Expected values are those of spec/95_test_vectors.md (named by section and line) or
worked out by hand from the rule named. A `witness_` theorem shows concrete values that meet all hypotheses of the
obligation it is named after, clause by clause. -/

namespace Sys2Proof.Tests

open Sys2Proof Sys2Proof.Machine

/-! ## Helpers -/

/-- The next state of an answer, if it is one. -/
def nextOf : Result → Option State
  | .next s => some s
  | .fault _ => none
  | .refused _ => none

/-- The fault of an answer, if it is one. -/
def faultOf : Result → Option Fault
  | .next _ => none
  | .fault e => some e
  | .refused _ => none

/-- A block with the default parameters, an id and a buffer. -/
def block (id : DevId) (b : List Byte) : State := { State.reset with devid := id, buf := b }

/-- The same with a finite capacity. -/
def capped (c : Nat) (b : List Byte) : State :=
  { block 0xFFFF b with params := { defaultParams with bufCap := some c } }

/-- The same with a range check. -/
def checking (c : PeriodCheck) : State := { State.reset with params := { defaultParams with periodCheck := c } }

/-- After a command that sent `F`. -/
def sent (F : List Byte) (s : State) : State := { s with tx := some F, ev := none, st := some ⟨.ok, 0, none⟩ }

/-- After a command that was turned away. -/
def turnedAway (code : StatusCode) (s : State) : State := { s with tx := none, ev := none, st := some ⟨code, 0, none⟩ }

/-- After a delivery. -/
def received (id : DevId) (b : List Byte) (ev : Option Event) (st : Status) (s : State) : State :=
  { s with devid := id, buf := b, tx := none, ev := ev, st := some st }

def t0 : Timestamp := ⟨0⟩
def t1 : Timestamp := ⟨1⟩

/-- `F1` of section 2.3. -/
def f1 : List Byte := [0xAA, 0xC0, 0x96, 0x00, 0x50, 0x00, 0x34, 0x0A, 0x24, 0xAB]

/-- `F2` of section 2.3. -/
def f2 : List Byte := [0xAA, 0xC0, 0x10, 0x00, 0x20, 0x00, 0x01, 0x02, 0x33, 0xAB]

/-- `F1` with a wrong checksum (L1.5). -/
def f1bad : List Byte := [0xAA, 0xC0, 0x96, 0x00, 0x50, 0x00, 0x34, 0x0A, 0x25, 0xAB]

/-- `F1` with a wrong tail (section 2.3, line 5). -/
def f1tail : List Byte := [0xAA, 0xC0, 0x96, 0x00, 0x50, 0x00, 0x34, 0x0A, 0x24, 0xAC]

/-- Without a finite capacity every chunk fits. -/
theorem fits_unbounded {s : State} (h : s.params.bufCap = none) (chunk : List Byte) : fits s chunk := by
  intro c hc
  rw [h] at hc
  cases hc

/-- The decidable form of `fits`, for the witnesses. -/
theorem fits_of {s : State} {chunk : List Byte} (h : overflows s chunk = false) : fits s chunk :=
  overflows_eq_false_iff.mp h

/-- The same of its failure. -/
theorem not_fits_of {s : State} {chunk : List Byte} (h : overflows s chunk = true) : ¬ fits s chunk := by
  intro hf
  rw [overflows_eq_false_iff.mpr hf] at h
  cases h

theorem aligned_nil : aligned [] := by
  intro x h
  cases h

theorem aligned_cons (b : List Byte) : aligned (0xAA :: b) := by
  intro x h
  cases h
  rfl

/-! ## Form checks -/

/-- R81, log 4: a chunk that is one whole frame is not written as a plain delivery. -/
theorem test_wf_refuses_frame_as_plain_delivery : (Instr.deliver f1 t0).wf = false := by decide

/-- R175: a recognised sub-command is not an unrecognised one. -/
theorem test_wf_refuses_recognised_sub : (Instr.rxAckUnrecognised 5 0 0 0 0x0A34 0x43 t0).wf = false := by decide

/-- R179: a known class is not an unknown one. -/
theorem test_wf_refuses_known_class :
    (Instr.rxUnknownClass 0xC0 0 0 0 0 0 0 0 t0).wf = false ∧
      (Instr.rxUnknownClass 0xC5 0 0 0 0 0 0 0 t0).wf = false := by decide

theorem test_wf_accepts :
    (Instr.deliver (f1 ++ [0x00]) t0).wf = true ∧ (Instr.rxAckUnrecognised 4 0 0 0 0x0A34 0x42 t0).wf = true ∧
      (Instr.rxUnknownClass 0xB4 0 0 0 0 0 0 0 t0).wf = true ∧ (Instr.setWorkingPeriod 0xFFFF none).wf = true := by
  decide

/-! ## Decoding: words written out from R75 to R80 and the vectors of sections 2.2 and 2.4 -/

theorem test_decode_commands_low :
    decode (.cmd 0x0000000000) = .setDataReportingMode .active none ∧
    decode (.cmd 0x0000030000) = .setDataReportingMode .query none ∧
    decode (.cmd 0x1000000000) = .getDataReportingMode none ∧
    decode (.cmd 0x2800000A34) = .queryData (some 0x0A34) ∧
    decode (.cmd 0x3812340A34) = .setDeviceId 0x1234 (some 0x0A34) ∧
    decode (.cmd 0x4000000000) = .setStatus .sleep none ∧
    decode (.cmd 0x4000010000) = .setStatus .work none ∧
    decode (.cmd 0x5700000000) = .getStatus none ∧
    decode (.cmd 0x5000000A34) = .getStatus none := by decide

theorem test_decode_commands_high :
    decode (.cmd 0x6001FF0000) = .setWorkingPeriod 0x01FF none ∧
    decode (.cmd 0x6800050A34) = .setWorkingPeriod 5 (some 0x0A34) ∧
    decode (.cmd 0x7000000000) = .getWorkingPeriod none ∧
    decode (.cmd 0x8000000000) = .checkFirmwareVersion none ∧
    decode (.cmd 0x9000000000) = .forceActiveMode none ∧
    decode (.cmd 0xA000000000) = .forceQueryMode none ∧
    decode (.cmd 0xB000000000) = .forceContinuousWorkingPeriod none := by decide

theorem test_decode_reserved :
    decode (.cmd 0xC000000000) = .reservedOpC ∧ decode (.cmd 0xD800010000) = .reservedOpD ∧
    decode (.cmd 0xE00000FFFF) = .reservedOpE ∧ decode (.cmd 0xFFFFFFFFFF) = .reservedOpF := by decide

theorem test_decode_control : decode (.ctrl 0) = .clearBuffer ∧ decode (.ctrl 1) = .reset := by decide

theorem test_decode_delivery :
    decode (.deliver [] t0) = .deliver [] t0 ∧ decode (.deliver f1tail t0) = .deliver f1tail t0 ∧
    decode (.deliver (f1 ++ f2) t1) = .deliver (f1 ++ f2) t1 := by decide

theorem test_decode_measurement :
    decode (.deliver [0xAA, 0xC0, 0x34, 0x12, 0x78, 0x56, 0x01, 0x00, 0x15, 0xAB] t1) =
      .rxMeasurement 0x1234 0x5678 0x0001 0x15 t1 := by decide

theorem test_decode_acknowledgments :
    decode (.deliver [0xAA, 0xC5, 0x02, 0x01, 0x01, 0x00, 0x34, 0x0A, 0x42, 0xAB] t0) =
      .rxAckReportingMode 1 1 0 0x0A34 0x42 t0 ∧
    decode (.deliver [0xAA, 0xC5, 0x05, 0x00, 0x00, 0x00, 0x34, 0x0A, 0x43, 0xAB] t0) =
      .rxAckDeviceId 0 0 0 0x0A34 0x43 t0 ∧
    decode (.deliver [0xAA, 0xC5, 0x06, 0x01, 0x00, 0x00, 0x34, 0x0A, 0x45, 0xAB] t0) =
      .rxAckSleepWork 1 0 0 0x0A34 0x45 t0 ∧
    decode (.deliver [0xAA, 0xC5, 0x07, 0x0F, 0x07, 0x0A, 0x34, 0x0A, 0x65, 0xAB] t0) =
      .rxAckFirmwareVersion 0x0F 0x07 0x0A 0x0A34 0x65 t0 ∧
    decode (.deliver [0xAA, 0xC5, 0x08, 0x01, 0x05, 0x00, 0x34, 0x0A, 0x4C, 0xAB] t0) =
      .rxAckWorkingPeriod 1 5 0 0x0A34 0x4C t0 ∧
    decode (.deliver [0xAA, 0xC5, 0x04, 0x00, 0x00, 0x00, 0x34, 0x0A, 0x42, 0xAB] t0) =
      .rxAckUnrecognised 4 0 0 0 0x0A34 0x42 t0 := by decide

theorem test_decode_unknown_class :
    decode (.deliver [0xAA, 0xB4, 0x00, 0x00, 0x00, 0x00, 0x00, 0x00, 0x00, 0xAB] t0) =
      .rxUnknownClass 0xB4 0 0 0 0 0 0 0 t0 := by decide

theorem test_decodeFrame_rejects :
    decodeFrame (f1.drop 1) t0 = .error .wrongLength ∧ decodeFrame (0x00 :: f1.drop 1) t0 = .error .noHead ∧
    decodeFrame f1tail t0 = .error .noTail := ⟨rfl, rfl, rfl⟩

/-- The table's numbering: a frame's first byte is its most significant (log 10). -/
theorem test_decodeTableWord :
    decodeTableWord 40 0x2800000A34 = some (.queryData (some 0x0A34)) ∧
    decodeTableWord 8 0x0 = some .clearBuffer ∧ decodeTableWord 8 0x1 = some .reset ∧
    decodeTableWord 0 0 = some (.deliver [] t0) ∧
    decodeTableWord 80 0xAAC096005000340A24AB = some (.rxMeasurement 150 80 0x0A34 0x24 t0) ∧
    decodeTableWord 80 0xAA0000000000000000AB = some (.rxUnknownClass 0 0 0 0 0 0 0 0 t0) ∧
    decodeTableWord 16 0 = none := by decide

/-! ## The step -/

/-- The table word is the next transaction that runs, from reset and with others issued. -/
theorem test_withFetchWord :
    nextOf (step (State.reset.withFetchWord 40 0x9000000000)) =
      nextOf (exec (.forceActiveMode none) State.reset) ∧
    nextOf (step ({ State.reset with pending := [.ctrl 1] }.withFetchWord 8 0x0)) =
      nextOf (exec .clearBuffer { State.reset with pending := [.ctrl 1] }) := by decide

/-! ## Commands (section 2.2) -/

theorem test_setDataReportingMode_active :
    nextOf (exec (decode (.cmd 0x0000000000)) State.reset) =
      some (sent [0xAA, 0xB4, 0x02, 0x01, 0x00, 0x00, 0x00, 0x00, 0x00, 0x00, 0x00, 0x00, 0x00, 0x00, 0x00, 0xFF, 0xFF, 0x01, 0xAB] State.reset) := by
  decide

theorem test_setDataReportingMode_query :
    nextOf (exec (decode (.cmd 0x0000010000)) State.reset) =
      some (sent [0xAA, 0xB4, 0x02, 0x01, 0x01, 0x00, 0x00, 0x00, 0x00, 0x00, 0x00, 0x00, 0x00, 0x00, 0x00, 0xFF, 0xFF, 0x02, 0xAB] State.reset) := by
  decide

theorem test_getDataReportingMode :
    nextOf (exec (decode (.cmd 0x1000000000)) State.reset) =
      some (sent [0xAA, 0xB4, 0x02, 0x00, 0x00, 0x00, 0x00, 0x00, 0x00, 0x00, 0x00, 0x00, 0x00, 0x00, 0x00, 0xFF, 0xFF, 0x00, 0xAB] State.reset) := by
  decide

theorem test_queryData :
    nextOf (exec (decode (.cmd 0x2000000000)) State.reset) =
      some (sent [0xAA, 0xB4, 0x04, 0x00, 0x00, 0x00, 0x00, 0x00, 0x00, 0x00, 0x00, 0x00, 0x00, 0x00, 0x00, 0xFF, 0xFF, 0x02, 0xAB] State.reset) := by
  decide

theorem test_queryData_target :
    nextOf (exec (decode (.cmd 0x2800000A34)) State.reset) =
      some (sent [0xAA, 0xB4, 0x04, 0x00, 0x00, 0x00, 0x00, 0x00, 0x00, 0x00, 0x00, 0x00, 0x00, 0x00, 0x00, 0x0A, 0x34, 0x42, 0xAB] State.reset) := by
  decide

theorem test_setDeviceId :
    nextOf (exec (decode (.cmd 0x3012340000)) State.reset) =
      some (sent [0xAA, 0xB4, 0x05, 0x00, 0x00, 0x00, 0x00, 0x00, 0x12, 0x34, 0x00, 0x00, 0x00, 0x00, 0x00, 0xFF, 0xFF, 0x49, 0xAB] State.reset) := by
  decide

theorem test_setDeviceId_target :
    nextOf (exec (decode (.cmd 0x3812340A34)) State.reset) =
      some (sent [0xAA, 0xB4, 0x05, 0x00, 0x00, 0x00, 0x00, 0x00, 0x12, 0x34, 0x00, 0x00, 0x00, 0x00, 0x00, 0x0A, 0x34, 0x89, 0xAB] State.reset) := by
  decide

theorem test_setStatus_sleep :
    nextOf (exec (decode (.cmd 0x4000000000)) State.reset) =
      some (sent [0xAA, 0xB4, 0x06, 0x01, 0x00, 0x00, 0x00, 0x00, 0x00, 0x00, 0x00, 0x00, 0x00, 0x00, 0x00, 0xFF, 0xFF, 0x05, 0xAB] State.reset) := by
  decide

theorem test_setStatus_work :
    nextOf (exec (decode (.cmd 0x4000010000)) State.reset) =
      some (sent [0xAA, 0xB4, 0x06, 0x01, 0x01, 0x00, 0x00, 0x00, 0x00, 0x00, 0x00, 0x00, 0x00, 0x00, 0x00, 0xFF, 0xFF, 0x06, 0xAB] State.reset) := by
  decide

theorem test_getStatus :
    nextOf (exec (decode (.cmd 0x5000000000)) State.reset) =
      some (sent [0xAA, 0xB4, 0x06, 0x00, 0x00, 0x00, 0x00, 0x00, 0x00, 0x00, 0x00, 0x00, 0x00, 0x00, 0x00, 0xFF, 0xFF, 0x04, 0xAB] State.reset) := by
  decide

theorem test_setWorkingPeriod :
    nextOf (exec (decode (.cmd 0x60001E0000)) State.reset) =
      some (sent [0xAA, 0xB4, 0x08, 0x01, 0x1E, 0x00, 0x00, 0x00, 0x00, 0x00, 0x00, 0x00, 0x00, 0x00, 0x00, 0xFF, 0xFF, 0x25, 0xAB] State.reset) := by
  decide

theorem test_setWorkingPeriod_wraps :
    nextOf (exec (decode (.cmd 0x6001FF0000)) State.reset) =
      some (sent [0xAA, 0xB4, 0x08, 0x01, 0xFF, 0x00, 0x00, 0x00, 0x00, 0x00, 0x00, 0x00, 0x00, 0x00, 0x00, 0xFF, 0xFF, 0x06, 0xAB] State.reset) := by
  decide

theorem test_getWorkingPeriod :
    nextOf (exec (decode (.cmd 0x7000000000)) State.reset) =
      some (sent [0xAA, 0xB4, 0x08, 0x00, 0x00, 0x00, 0x00, 0x00, 0x00, 0x00, 0x00, 0x00, 0x00, 0x00, 0x00, 0xFF, 0xFF, 0x06, 0xAB] State.reset) := by
  decide

theorem test_checkFirmwareVersion :
    nextOf (exec (decode (.cmd 0x8000000000)) State.reset) =
      some (sent [0xAA, 0xB4, 0x07, 0x00, 0x00, 0x00, 0x00, 0x00, 0x00, 0x00, 0x00, 0x00, 0x00, 0x00, 0x00, 0xFF, 0xFF, 0x05, 0xAB] State.reset) := by
  decide

theorem test_forceActiveMode :
    nextOf (exec (decode (.cmd 0x9000000000)) State.reset) =
      some (sent [0xAA, 0xB4, 0x02, 0x01, 0x00, 0x00, 0x00, 0x00, 0x00, 0x00, 0x00, 0x00, 0x00, 0x00, 0x00, 0xFF, 0xFF, 0x01, 0xAB] State.reset) := by
  decide

theorem test_forceQueryMode :
    nextOf (exec (decode (.cmd 0xA000000000)) State.reset) =
      some (sent [0xAA, 0xB4, 0x02, 0x01, 0x01, 0x00, 0x00, 0x00, 0x00, 0x00, 0x00, 0x00, 0x00, 0x00, 0x00, 0xFF, 0xFF, 0x02, 0xAB] State.reset) := by
  decide

theorem test_forceContinuousWorkingPeriod :
    nextOf (exec (decode (.cmd 0xB000000000)) State.reset) =
      some (sent [0xAA, 0xB4, 0x08, 0x01, 0x00, 0x00, 0x00, 0x00, 0x00, 0x00, 0x00, 0x00, 0x00, 0x00, 0x00, 0xFF, 0xFF, 0x07, 0xAB] State.reset) := by
  decide

theorem test_setWorkingPeriod_rejected :
    nextOf (exec (decode (.cmd 0x60001F0000)) (checking .sensor)) = some (turnedAway .badArg (checking .sensor)) ∧
    nextOf (exec (decode (.cmd 0x6001000000)) (checking .byte)) = some (turnedAway .badArg (checking .byte)) := by
  decide

theorem test_reserved_ops :
    nextOf (exec (decode (.cmd 0xC000000000)) (block 0x0A34 f1)) = some (turnedAway .badOp (block 0x0A34 f1)) ∧
    nextOf (exec (decode (.cmd 0xD000000000)) (block 0x0A34 f1)) = some (turnedAway .badOp (block 0x0A34 f1)) ∧
    nextOf (exec (decode (.cmd 0xE000000000)) (block 0x0A34 f1)) = some (turnedAway .badOp (block 0x0A34 f1)) ∧
    nextOf (exec (decode (.cmd 0xFFFFFFFFFF)) (block 0x0A34 f1)) = some (turnedAway .badOp (block 0x0A34 f1)) := by
  decide

/-! ## The checksum (section 2.1) -/

theorem test_checksum :
    checksum [0xFF, 0xFF] = 0xFE ∧ checksum [0x80, 0x80] = 0x00 ∧ checksum [1, 2, 3, 4, 5, 6] = 0x15 ∧
    checksum (List.replicate 15 0xFF) = 0xF1 ∧ checksum [0x96, 0x00, 0x50, 0x00, 0x34, 0x0A] = 0x24 := by decide

/-- The table of R211. -/
theorem test_status_code_values :
    [StatusCode.ok, .short, .badChecksum, .badTail, .badOp, .badArg, .bufOverflow].map StatusCode.value =
      [0, 1, 2, 3, 4, 5, 6] := by decide

/-! ## Deliveries (section 2.3, by line) -/

theorem test_deliver_line_2 :
    nextOf (exec (.deliver [0x01, 0x02, 0x03] t1) (block 0xFFFF [])) =
      some (received 0xFFFF [] none ⟨.short, 3, none⟩ (block 0xFFFF [])) := by
  decide

theorem test_deliver_line_4 :
    nextOf (exec (.deliver [0x50, 0x00, 0x34, 0x0A, 0x24, 0xAB] t1) (block 0xFFFF [0xAA, 0xC0, 0x96, 0x00])) =
      some (received 0x0A34 [] (some (.meas 150 80 t1)) ⟨.ok, 0, some .meas⟩ (block 0xFFFF [0xAA, 0xC0, 0x96, 0x00])) := by
  decide

theorem test_deliver_line_5 :
    nextOf (exec (.deliver f1tail t1) (block 0xFFFF [])) =
      some (received 0xFFFF [] none ⟨.badTail, 0, none⟩ (block 0xFFFF [])) := by
  decide

theorem test_deliver_line_6 :
    nextOf (exec (.deliver [0xAA, 0xC0, 0x96, 0x00, 0x50, 0x00, 0x34, 0x0A, 0x25, 0xAC] t1) (block 0xFFFF [])) =
      some (received 0xFFFF [] none ⟨.badChecksum, 0, none⟩ (block 0xFFFF [])) := by
  decide

theorem test_deliver_line_7 :
    nextOf (exec (.deliver (f1 ++ f2) t1) (block 0xFFFF [])) =
      some (received 0x0A34 [] (some (.meas 150 80 t1)) ⟨.ok, 0, some .meas⟩ (block 0xFFFF [])) := by
  decide

theorem test_deliver_line_9 :
    nextOf (exec (.deliver (f1bad ++ f1) t1) (block 0xFFFF [])) =
      some (received 0xFFFF f1 none ⟨.badChecksum, 0, none⟩ (block 0xFFFF [])) := by
  decide

theorem test_deliver_line_10 :
    nextOf (exec (.deliver [] t1) (block 0xFFFF f1)) =
      some (received 0x0A34 [] (some (.meas 150 80 t1)) ⟨.ok, 0, some .meas⟩ (block 0xFFFF f1)) := by
  decide

theorem test_deliver_line_11 :
    nextOf (exec (.deliver f1 t1) (block 0xFFFF [0xAA, 0xC0, 0x96])) =
      some (received 0xFFFF [0x0A, 0x24, 0xAB] none ⟨.badChecksum, 0, none⟩ (block 0xFFFF [0xAA, 0xC0, 0x96])) := by
  decide

theorem test_deliver_line_12 :
    nextOf (exec (.deliver f2 t1) (block 0xFFFF [0x0A, 0x24, 0xAB])) =
      some (received 0x0201 [] (some (.meas 16 32 t1)) ⟨.ok, 3, some .meas⟩ (block 0xFFFF [0x0A, 0x24, 0xAB])) := by
  decide

theorem test_deliver_line_13 :
    nextOf (exec (.deliver [0xAA, 0xC0, 0xAA, 0x00, 0xAA, 0x00, 0x34, 0x0A, 0x92, 0xAB] t1) (block 0xFFFF [])) =
      some (received 0x0A34 [] (some (.meas 170 170 t1)) ⟨.ok, 0, some .meas⟩ (block 0xFFFF [])) := by
  decide

theorem test_deliver_line_14 :
    nextOf (exec (.deliver f1 t1) (capped 16 [0xAA, 0xAA, 0xAA, 0xAA, 0xAA])) =
      some (received 0xFFFF [0x00, 0x34, 0x0A, 0x24, 0xAB] none ⟨.badChecksum, 0, none⟩ (capped 16 [0xAA, 0xAA, 0xAA, 0xAA, 0xAA])) := by
  decide

theorem test_deliver_line_16 :
    faultOf (exec (.deliver f1 t1) (capped 16 [0xAA, 0, 0, 0, 0, 0, 0, 0, 0])) = some (.bufOverflow 9 10) := by
  decide

/-- L1.8: an outbound frame fed back. -/
theorem test_deliver_line_17 :
    nextOf (exec (.deliver [0xAA, 0xB4, 4, 0, 0, 0, 0, 0, 0, 0, 0, 0, 0, 0, 0, 0xFF, 0xFF, 0x02, 0xAB] t1)
        State.reset) =
      some (received 0xFFFF [0, 0, 0, 0, 0, 0xFF, 0xFF, 0x02, 0xAB] none ⟨.badChecksum, 0, none⟩ State.reset) := by
  decide

/-! ## Inbound frames (section 2.4) -/

theorem test_rxMeasurement :
    nextOf (exec (decode (.deliver [0xAA, 0xC0, 0x34, 0x12, 0x78, 0x56, 0x01, 0x00, 0x15, 0xAB] t1)) (block 0xFFFF [])) =
      some (received 0x0001 [] (some (.meas 0x1234 0x5678 t1)) ⟨.ok, 0, some .meas⟩ (block 0xFFFF [])) := by
  decide

theorem test_rxAckReportingMode :
    nextOf (exec (decode (.deliver [0xAA, 0xC5, 0x02, 0x01, 0x01, 0x00, 0x34, 0x0A, 0x42, 0xAB] t1)) (block 0xFFFF [])) =
      some (received 0x0A34 [] (some (.ack 2 1 1 0 0x0A34 t1)) ⟨.ok, 0, some .ack⟩ (block 0xFFFF [])) := by
  decide

theorem test_rxAckDeviceId :
    nextOf (exec (decode (.deliver [0xAA, 0xC5, 0x05, 0x00, 0x00, 0x00, 0x34, 0x0A, 0x43, 0xAB] t1)) (block 0xFFFF [])) =
      some (received 0x0A34 [] (some (.ack 5 0 0 0 0x0A34 t1)) ⟨.ok, 0, some .ack⟩ (block 0xFFFF [])) := by
  decide

theorem test_rxAckSleepWork :
    nextOf (exec (decode (.deliver [0xAA, 0xC5, 0x06, 0x01, 0x00, 0x00, 0x34, 0x0A, 0x45, 0xAB] t1)) (block 0xFFFF [])) =
      some (received 0x0A34 [] (some (.ack 6 1 0 0 0x0A34 t1)) ⟨.ok, 0, some .ack⟩ (block 0xFFFF [])) := by
  decide

theorem test_rxAckFirmwareVersion :
    nextOf (exec (decode (.deliver [0xAA, 0xC5, 0x07, 0x0F, 0x07, 0x0A, 0x34, 0x0A, 0x65, 0xAB] t1)) (block 0xFFFF [])) =
      some (received 0x0A34 [] (some (.ack 7 0x0F 0x07 0x0A 0x0A34 t1)) ⟨.ok, 0, some .ack⟩ (block 0xFFFF [])) := by
  decide

theorem test_rxAckWorkingPeriod :
    nextOf (exec (decode (.deliver [0xAA, 0xC5, 0x08, 0x01, 0x05, 0x00, 0x34, 0x0A, 0x4C, 0xAB] t1)) (block 0xFFFF [])) =
      some (received 0x0A34 [] (some (.ack 8 1 5 0 0x0A34 t1)) ⟨.ok, 0, some .ack⟩ (block 0xFFFF [])) := by
  decide

theorem test_rxAckUnrecognised :
    nextOf (exec (decode (.deliver [0xAA, 0xC5, 0x09, 0x00, 0x00, 0x00, 0x34, 0x0A, 0x47, 0xAB] t1)) (block 0xFFFF [])) =
      some (received 0x0A34 [] none ⟨.ok, 0, some .ackDropped⟩ (block 0xFFFF [])) := by
  decide

theorem test_rxUnknownClass :
    nextOf (exec (decode (.deliver [0xAA, 0x00, 0x01, 0x02, 0x03, 0x04, 0x05, 0x06, 0x15, 0xAB] t1)) (block 0x0A34 [])) =
      some (received 0x0A34 [] (some (.unknownClass 0 0x0A34 t1)) ⟨.ok, 0, some .unknownClass⟩ (block 0x0A34 [])) := by
  decide

/-! ## Control (section 2.5) -/

theorem test_clearBuffer :
    nextOf (exec .clearBuffer (block 0x0A34 [0xAA, 0xC0, 0x96])) =
      some (received 0x0A34 [] none ⟨.ok, 0, none⟩ (block 0x0A34 [])) := by decide

theorem test_reset :
    nextOf (exec .reset (block 0x0A34 [0xAA, 0xC0])) =
      some (received 0xFFFF [] none ⟨.ok, 0, none⟩ (block 0xFFFF [])) := by decide

/-! ## Witnesses: every hypothesis of every obligation can be met

The states are small and concrete. `witness_X_<clause>` names the clause of a statement with several. -/

theorem witness_DecodeEncodeRoundTrip :
    (Instr.setWorkingPeriod 0xFFFF (some 0)).wf = true ∧ (Instr.deliver [0xAA] t1).wf = true ∧
      (Instr.rxAckUnrecognised 9 1 2 3 0x0A34 0 t1).wf = true ∧
      (Instr.rxUnknownClass 0xBF 1 2 3 4 5 6 7 t1).wf = true := by decide

/-- The two words differ in `RSV`, in `ARG[15:1]` and in `DEV` under `DP = 0`. -/
theorem witness_IgnoredCommandBitsHaveNoEffect :
    let W : BitVec 40 := 0x0000010000
    let W' : BitVec 40 := 0x07FFFF0A34
    W.extractLsb' 36 4 = W'.extractLsb' 36 4 ∧ W.getLsbD 35 = W'.getLsbD 35 ∧
      (W.getLsbD 35 = true → W.extractLsb' 0 16 = W'.extractLsb' 0 16) ∧
      (W.extractLsb' 36 4 = 0x0#4 ∨ W.extractLsb' 36 4 = 0x4#4 → W.getLsbD 16 = W'.getLsbD 16) ∧
      (W.extractLsb' 36 4 = 0x3#4 ∨ W.extractLsb' 36 4 = 0x6#4 → W.extractLsb' 16 16 = W'.extractLsb' 16 16) := by
  decide

theorem witness_StepRunsTheDecodedTransaction :
    ({ State.reset with pending := [.cmd 0x2000000000, .ctrl 1] }).pending = .cmd 0x2000000000 :: [.ctrl 1] ∧
      State.reset.pending = [] := ⟨rfl, rfl⟩

theorem witness_TransactionsTakeEffectInOneOrder :
    ({ State.reset with pending := [.deliver f1 t1, .cmd 0x2000000000] }).pending =
        .deliver f1 t1 :: .cmd 0x2000000000 :: [] ∧
      step { State.reset with pending := [.deliver f1 t1, .cmd 0x2000000000] } =
        .next (received 0x0A34 [] (some (.meas 150 80 t1)) ⟨.ok, 0, some .meas⟩
          { State.reset with pending := [.cmd 0x2000000000] }) := ⟨rfl, rfl⟩

theorem witness_ParametersAndHostSequenceUnchanged :
    exec (.deliver f1 t1) (block 0xFFFF []) =
      .next (received 0x0A34 [] (some (.meas 150 80 t1)) ⟨.ok, 0, some .meas⟩ (block 0xFFFF [])) := rfl

/-- The operation codes of the command statements, each in a word with other bits set. -/
theorem witness_command_words :
    (0x0800010A34 : BitVec 40).extractLsb' 36 4 = 0x0#4 ∧ (0x1800000A34 : BitVec 40).extractLsb' 36 4 = 0x1#4 ∧
    (0x2800000A34 : BitVec 40).extractLsb' 36 4 = 0x2#4 ∧ (0x3812340A34 : BitVec 40).extractLsb' 36 4 = 0x3#4 ∧
    (0x4000010000 : BitVec 40).extractLsb' 36 4 = 0x4#4 ∧ (0x5700000000 : BitVec 40).extractLsb' 36 4 = 0x5#4 ∧
    (0x6001FF0000 : BitVec 40).extractLsb' 36 4 = 0x6#4 ∧ (0x7000000000 : BitVec 40).extractLsb' 36 4 = 0x7#4 ∧
    (0x8000000000 : BitVec 40).extractLsb' 36 4 = 0x8#4 ∧ (0x9000000000 : BitVec 40).extractLsb' 36 4 = 0x9#4 ∧
    (0xA000000000 : BitVec 40).extractLsb' 36 4 = 0xA#4 ∧ (0xB000000000 : BitVec 40).extractLsb' 36 4 = 0xB#4 ∧
    (0xC000000000 : BitVec 40).extractLsb' 36 4 = 0xC#4 ∧ (0xD000000000 : BitVec 40).extractLsb' 36 4 = 0xD#4 ∧
    (0xE000000000 : BitVec 40).extractLsb' 36 4 = 0xE#4 ∧ (0xFFFFFFFFFF : BitVec 40).extractLsb' 36 4 = 0xF#4 := by
  decide

theorem witness_SetDataReportingModeEmitsFrame : (0x0800010A34 : BitVec 40).extractLsb' 36 4 = 0x0#4 :=
  witness_command_words.1

theorem witness_QueryCommandsEmitFrame :
    (0x1800000A34 : BitVec 40).extractLsb' 36 4 = 0x1#4 ∧ (0x2800000A34 : BitVec 40).extractLsb' 36 4 = 0x2#4 ∧
    (0x5700000000 : BitVec 40).extractLsb' 36 4 = 0x5#4 ∧ (0x7000000000 : BitVec 40).extractLsb' 36 4 = 0x7#4 ∧
    (0x8000000000 : BitVec 40).extractLsb' 36 4 = 0x8#4 := by decide

theorem witness_SetDeviceIdEmitsFrame : (0x3812340A34 : BitVec 40).extractLsb' 36 4 = 0x3#4 := by decide

theorem witness_SetStatusEmitsFrame : (0x4000010000 : BitVec 40).extractLsb' 36 4 = 0x4#4 := by decide

theorem witness_SetWorkingPeriodSendsLowByteOrRejects_accepts :
    (checking .noCheck).params.periodCheck = .noCheck ∧
    ((checking .byte).params.periodCheck = .byte ∧ (0x00FF : Half).toNat ≤ 255) ∧
    ((checking .sensor).params.periodCheck = .sensor ∧ (0x001E : Half).toNat ≤ 30) := by decide

theorem witness_SetWorkingPeriodSendsLowByteOrRejects_rejects :
    ((checking .byte).params.periodCheck = .byte ∧ 255 < (0x0100 : Half).toNat) ∧
    ((checking .sensor).params.periodCheck = .sensor ∧ 30 < (0x001F : Half).toNat) := by decide

theorem witness_ShorthandsEmitFrame :
    (0x9000000000 : BitVec 40).extractLsb' 36 4 = 0x9#4 ∧ (0xA000000000 : BitVec 40).extractLsb' 36 4 = 0xA#4 ∧
    (0xB000000000 : BitVec 40).extractLsb' 36 4 = 0xB#4 := by decide

/-- The range check is on and the period is its largest. -/
theorem witness_ShorthandsEqualTheirExpansions :
    let p : Params := { defaultParams with periodCheck := .sensor, continuousPeriod := 30 }
    p.periodCheck = .sensor → p.continuousPeriod.toNat ≤ 30 := by decide

theorem witness_ReservedOpsReportBadOp :
    (0xC000000000 : BitVec 40).extractLsb' 36 4 = 0xC#4 ∧ (0xD000000000 : BitVec 40).extractLsb' 36 4 = 0xD#4 ∧
    (0xE000000000 : BitVec 40).extractLsb' 36 4 = 0xE#4 ∧ (0xFFFFFFFFFF : BitVec 40).extractLsb' 36 4 = 0xF#4 := by
  decide

/-- A command that sends, one with a new id and one without. -/
theorem witness_EveryOutboundFrameHasTheLayout :
    (exec (decode (.cmd 0x3012340000)) State.reset =
        .next (sent (outboundFrame 0x05 0 0 0x12 0x34 0xFFFF) State.reset) ∧
      (sent (outboundFrame 0x05 0 0 0x12 0x34 0xFFFF) State.reset).tx =
        some (outboundFrame 0x05 0 0 0x12 0x34 0xFFFF)) ∧
    (exec (decode (.cmd 0x2800000A34)) State.reset =
        .next (sent (outboundFrame 0x04 0 0 0 0 0x0A34) State.reset) ∧
      (0x2800000A34 : BitVec 40).extractLsb' 36 4 ≠ 0x3#4) := ⟨⟨rfl, rfl⟩, rfl, by decide⟩

theorem witness_OkCommandEmitsOneValidFrame :
    (sent (outboundFrame 0x04 0 0 0 0 0x0A34) State.reset).reports .ok ∧
    ¬ (turnedAway .badOp State.reset).reports .ok ∧
    (State.reset.params.periodCheck = .noCheck ∧ ((0xB000000000 : BitVec 40).extractLsb' 36 4).toNat ≤ 0xB) := by
  refine ⟨⟨_, rfl, rfl⟩, ?_, by decide⟩
  rintro ⟨x, hx, hc⟩
  cases hx
  cases hc

/-- Two blocks that differ in the id under `DP = 1`, and two that agree under `DP = 0`. -/
theorem witness_CommandsWriteNoRegisterAndReadOnlyTheSessionId :
    (exec (decode (.cmd 0x2800000A34)) State.reset =
        .next (sent (outboundFrame 0x04 0 0 0 0 0x0A34) State.reset) ∧
      State.reset.params = (block 0x0001 f1).params ∧ (0x2800000A34 : BitVec 40).getLsbD 35 ≠ false) ∧
    (exec (decode (.cmd 0x2000000000)) State.reset =
        .next (sent (outboundFrame 0x04 0 0 0 0 0xFFFF) State.reset) ∧
      State.reset.params = (block 0xFFFF f1).params ∧ (0x2000000000 : BitVec 40).getLsbD 35 = false ∧
      State.reset.devid = (block 0xFFFF f1).devid) :=
  ⟨⟨rfl, rfl, by decide⟩, rfl, rfl, by decide, rfl⟩

theorem witness_ChecksumCornerCases :
    256 ∣ (([0x80, 0x80] : List Byte).map BitVec.toNat).sum ∧ ([1, 2] : List Byte).Perm [2, 1] ∧
    (List.replicate 15 (0xFF : Byte)).length = 15 ∧ (List.replicate 6 (0xFF : Byte)).length = 6 :=
  ⟨by decide, List.Perm.swap _ _ _, rfl, rfl⟩

theorem witness_DeliveryRemovesBytesBeforeTheFirstHead :
    exec (.deliver f2 t1) (block 0xFFFF [0x0A, 0x24, 0xAB]) =
      .next (received 0x0201 [] (some (.meas 16 32 t1)) ⟨.ok, 3, some .meas⟩ (block 0xFFFF [])) := rfl

/-- Nine aligned bytes after noise; and no aligned byte at all, at a full finite buffer. -/
theorem witness_ShortDeliveryWaits :
    (fits (block 0xFFFF [0x00]) (f1.take 9) ∧ (block 0xFFFF [0x00]).buf ++ f1.take 9 = [0x00] ++ f1.take 9 ∧
      (0xAA : Byte) ∉ [(0x00 : Byte)] ∧ aligned (f1.take 9) ∧ (f1.take 9).length < 10) ∧
    (fits (capped 10 (List.replicate 8 0)) [1, 2] ∧
      (capped 10 (List.replicate 8 0)).buf ++ [1, 2] = [0, 0, 0, 0, 0, 0, 0, 0, 1, 2] ++ [] ∧
      (0xAA : Byte) ∉ ([0, 0, 0, 0, 0, 0, 0, 0, 1, 2] : List Byte) ∧ aligned [] ∧ ([] : List Byte).length < 10) :=
  ⟨⟨fits_of rfl, rfl, by decide, aligned_cons _, by decide⟩, fits_of rfl, rfl, by decide, aligned_nil, by decide⟩

theorem witness_InvalidFrameLosesExactlyTenBytes_checksum :
    fits (block 0xFFFF []) ([0x00] ++ f1bad ++ f2) ∧
      (block 0xFFFF []).buf ++ ([0x00] ++ f1bad ++ f2) = [0x00] ++ f1bad ++ f2 ∧ (0xAA : Byte) ∉ [(0x00 : Byte)] ∧
      aligned f1bad ∧ f1bad.length = 10 ∧ checksum (slice f1bad 2 7) ≠ byteAt f1bad 8 :=
  ⟨fits_of rfl, rfl, by decide, aligned_cons _, rfl, by decide⟩

theorem witness_InvalidFrameLosesExactlyTenBytes_tail :
    fits (block 0xFFFF []) ([0x00] ++ f1tail ++ f2) ∧
      (block 0xFFFF []).buf ++ ([0x00] ++ f1tail ++ f2) = [0x00] ++ f1tail ++ f2 ∧
      (0xAA : Byte) ∉ [(0x00 : Byte)] ∧ aligned f1tail ∧ f1tail.length = 10 ∧
      checksum (slice f1tail 2 7) = byteAt f1tail 8 ∧ byteAt f1tail 9 ≠ 0xAB :=
  ⟨fits_of rfl, rfl, by decide, aligned_cons _, rfl, by decide, by decide⟩

/-- A frame that is valid and one that is not, in a buffer filled to its capacity. -/
theorem witness_DeliveryIsOkExactlyWhenTheFrameIsValid :
    (fits (capped 11 [0x01]) f1 ∧ (capped 11 [0x01]).buf ++ f1 = [0x01] ++ f1 ++ [] ∧
      (0xAA : Byte) ∉ [(0x01 : Byte)] ∧ aligned f1 ∧ f1.length = 10 ∧ rxValid f1) ∧
    (fits (capped 11 [0x01]) f1tail ∧ (capped 11 [0x01]).buf ++ f1tail = [0x01] ++ f1tail ++ [] ∧
      aligned f1tail ∧ f1tail.length = 10 ∧ ¬ rxValid f1tail) :=
  ⟨⟨fits_of rfl, rfl, by decide, aligned_cons _, rfl, by decide, by decide⟩,
    fits_of rfl, rfl, aligned_cons _, rfl, fun h => absurd h.2 (by decide)⟩

theorem witness_ValidFrameIsInterpretedAndTheRestDiscarded :
    fits (block 0xFFFF [0x00]) (f1 ++ f2) ∧ (block 0xFFFF [0x00]).buf ++ (f1 ++ f2) = [0x00] ++ f1 ++ f2 ∧
      (0xAA : Byte) ∉ [(0x00 : Byte)] ∧ aligned f1 ∧ f1.length = 10 ∧ rxValid f1 :=
  ⟨fits_of rfl, rfl, by decide, aligned_cons _, rfl, by decide, by decide⟩

/-- One byte too many, in the plain form and in a frame's form. -/
theorem witness_OverflowIsTheOnlyFault :
    ¬ fits (capped 16 [0xAA, 0, 0, 0, 0, 0, 0]) f1 ∧
    exec (.rxMeasurement 150 80 0x0A34 0x24 t1) (capped 16 [0xAA, 0, 0, 0, 0, 0, 0]) = .fault (.bufOverflow 7 10) :=
  ⟨not_fits_of rfl, rfl⟩

theorem witness_FramingErrorsEmitNothing :
    exec (.deliver f1tail t1) (block 0x0A34 []) =
      .next (received 0x0A34 [] none ⟨.badTail, 0, none⟩ (block 0x0A34 [])) ∧
    ¬ (received 0x0A34 [] none ⟨.badTail, 0, none⟩ (block 0x0A34 [])).reports .ok := by
  refine ⟨rfl, ?_⟩
  rintro ⟨x, hx, hc⟩
  cases hx
  cases hc

theorem witness_ZeroLengthDelivery :
    (fits (block 0xFFFF (f1.take 9)) [] ∧ restAligned (block 0xFFFF (f1.take 9)).buf) ∧
    (fits (block 0xFFFF ([0x00] ++ f1 ++ f2)) [] ∧ (block 0xFFFF ([0x00] ++ f1 ++ f2)).buf = [0x00] ++ f1 ++ f2 ∧
      (0xAA : Byte) ∉ [(0x00 : Byte)] ∧ aligned f1 ∧ f1.length = 10 ∧ rxValid f1) :=
  ⟨⟨fits_of rfl, aligned_cons _, by decide⟩, fits_of rfl, rfl, by decide, aligned_cons _, rfl, by decide, by decide⟩

/-- The outcomes of a delivery by the status reported; then the controls and a command. -/
theorem witness_FramerStateMachine :
    (exec (.deliver [0x02] t1) (block 0xFFFF [0x01]) =
        .next (received 0xFFFF [] none ⟨.short, 2, none⟩ (block 0xFFFF [])) ∧
      (0xAA : Byte) ∉ (block 0xFFFF [0x01]).buf ++ [0x02]) ∧
    (exec (.deliver [0xAA] t1) (block 0xFFFF [0x01]) =
        .next (received 0xFFFF [0xAA] none ⟨.short, 1, none⟩ (block 0xFFFF [])) ∧
      (0xAA : Byte) ∈ (block 0xFFFF [0x01]).buf ++ [0xAA]) ∧
    exec (.deliver f2 t1) (block 0xFFFF []) =
      .next (received 0x0201 [] (some (.meas 16 32 t1)) ⟨.ok, 0, some .meas⟩ (block 0xFFFF [])) ∧
    exec (.deliver (f1bad ++ f1) t1) (block 0xFFFF []) =
      .next (received 0xFFFF f1 none ⟨.badChecksum, 0, none⟩ (block 0xFFFF [])) ∧
    exec .clearBuffer (block 0xFFFF f1) = .next (received 0xFFFF [] none ⟨.ok, 0, none⟩ (block 0xFFFF [])) ∧
    exec (decode (.cmd 0xC000000000)) (block 0xFFFF f1) = .next (turnedAway .badOp (block 0xFFFF f1)) :=
  ⟨⟨rfl, by decide⟩, ⟨rfl, by decide⟩, rfl, rfl, rfl, rfl⟩

/-- The outcomes by the bytes: nine aligned ones; a valid frame; and a failed one whose remainder is led by a head marker,
is not, and is empty. -/
theorem witness_FramerStateMachine_bytes :
    (exec (.deliver (f1.take 9) t1) (block 0xFFFF [0x00]) =
        .next (received 0xFFFF (f1.take 9) none ⟨.short, 1, none⟩ (block 0xFFFF [])) ∧
      (block 0xFFFF [0x00]).buf ++ f1.take 9 = [0x00] ++ f1.take 9 ∧ (0xAA : Byte) ∉ [(0x00 : Byte)] ∧
      aligned (f1.take 9) ∧ f1.take 9 ≠ [] ∧ (f1.take 9).length < 10) ∧
    (exec (.deliver f2 t1) (block 0xFFFF []) =
        .next (received 0x0201 [] (some (.meas 16 32 t1)) ⟨.ok, 0, some .meas⟩ (block 0xFFFF [])) ∧
      (block 0xFFFF []).buf ++ f2 = [] ++ f2 ++ [] ∧ aligned f2 ∧ f2.length = 10 ∧ rxValid f2) ∧
    (aligned f1bad ∧ f1bad.length = 10 ∧ ¬ rxValid f1bad) ∧
    (exec (.deliver (f1bad ++ [0xAA]) t1) (block 0xFFFF []) =
        .next (received 0xFFFF [0xAA] none ⟨.badChecksum, 0, none⟩ (block 0xFFFF [])) ∧
      (block 0xFFFF []).buf ++ (f1bad ++ [0xAA]) = [] ++ f1bad ++ [0xAA]) ∧
    (exec (.deliver (f1bad ++ [0xAB]) t1) (block 0xFFFF []) =
        .next (received 0xFFFF [0xAB] none ⟨.badChecksum, 0, none⟩ (block 0xFFFF [])) ∧
      (block 0xFFFF []).buf ++ (f1bad ++ [0xAB]) = [] ++ f1bad ++ [0xAB]) ∧
    (exec (.deliver f1bad t1) (block 0xFFFF []) =
        .next (received 0xFFFF [] none ⟨.badChecksum, 0, none⟩ (block 0xFFFF [])) ∧
      (block 0xFFFF []).buf ++ f1bad = [] ++ f1bad ++ []) :=
  ⟨⟨rfl, rfl, by decide, aligned_cons _, by decide, by decide⟩,
    ⟨rfl, rfl, aligned_cons _, rfl, ⟨by decide, by decide⟩⟩,
    ⟨aligned_cons _, rfl, fun h => absurd h.1 (by decide)⟩, ⟨rfl, rfl⟩, ⟨rfl, rfl⟩, rfl, rfl⟩

theorem witness_FramerMakesProgress :
    exec (.deliver [] t1) (block 0xFFFF (f1bad ++ f1)) =
      .next (received 0xFFFF f1 none ⟨.badChecksum, 0, none⟩ (block 0xFFFF [])) ∧
    (fits (block 0xFFFF (f1bad ++ f1)) [] ∧ (block 0xFFFF (f1bad ++ f1)).buf.length ≤ 10 * [t0, t1].length) ∧
    ((block 0xFFFF []).buf = [] ∧ fits (block 0xFFFF []) f1 ∧ f1.length = 10 ∧ aligned f1 ∧ rxValid f1) :=
  ⟨rfl, ⟨fits_of rfl, by decide⟩, rfl, fits_of rfl, rfl, aligned_cons _, by decide, by decide⟩

/-- Noise and nine aligned bytes; noise, a valid frame and another; a frame that fails. -/
theorem witness_ChunkingChangesTheFramesExactlySo :
    let feed (bs : List Byte) : List (Byte × Timestamp) := bs.map fun b => (b, t1)
    ((block 0xFFFF []).buf = [] ∧ (block 0xFFFF []).params.legal = true ∧
      fits (block 0xFFFF []) ((feed ([0x00] ++ f1 ++ f2)).map Prod.fst)) ∧
    ((feed ([0x00] ++ f1.take 9)).map Prod.fst = [0x00] ++ f1.take 9 ∧ (0xAA : Byte) ∉ [(0x00 : Byte)] ∧
      aligned (f1.take 9) ∧ (f1.take 9).length < 10) ∧
    ((feed ([0x00] ++ f1 ++ f2)).map Prod.fst = [0x00] ++ f1 ++ f2 ∧ (0xAA : Byte) ∉ [(0x00 : Byte)] ∧
      aligned f1 ∧ f1.length = 10 ∧ rxValid f1) ∧
    ((feed (f1bad ++ f2)).map Prod.fst = [] ++ f1bad ++ f2 ∧ aligned f1bad ∧ f1bad.length = 10 ∧ ¬ rxValid f1bad) :=
  ⟨⟨rfl, rfl, fits_of rfl⟩, ⟨rfl, by decide, aligned_cons _, by decide⟩,
    ⟨rfl, by decide, aligned_cons _, rfl, by decide, by decide⟩, rfl, aligned_cons _, rfl,
    fun h => absurd h.1 (by decide)⟩

/-- A partial frame of one byte and one of nine, before a valid frame. -/
theorem witness_PartialFrameSwallowsTheNextOne :
    (fits (block 0xFFFF [0xAA]) f1 ∧ aligned (block 0xFFFF [0xAA]).buf ∧ 1 ≤ (block 0xFFFF [0xAA]).buf.length ∧
      (block 0xFFFF [0xAA]).buf.length ≤ 9 ∧ 10 - (block 0xFFFF [0xAA]).buf.length ≤ f1.length ∧
      ¬ rxValid ((block 0xFFFF [0xAA]).buf ++ f1.take (10 - (block 0xFFFF [0xAA]).buf.length))) ∧
    (fits (block 0xFFFF (f2.take 9)) f1 ∧ aligned (block 0xFFFF (f2.take 9)).buf ∧
      1 ≤ (block 0xFFFF (f2.take 9)).buf.length ∧ (block 0xFFFF (f2.take 9)).buf.length ≤ 9 ∧
      10 - (block 0xFFFF (f2.take 9)).buf.length ≤ f1.length ∧
      ¬ rxValid ((block 0xFFFF (f2.take 9)).buf ++ f1.take (10 - (block 0xFFFF (f2.take 9)).buf.length))) :=
  ⟨⟨fits_of rfl, aligned_cons _, by decide, by decide, by decide, fun h => absurd h.1 (by decide)⟩,
    fits_of rfl, aligned_cons _, by decide, by decide, by decide, fun h => absurd h.2 (by decide)⟩

theorem witness_FailedValidationGrowsTheBufferByTheRest :
    exec (.deliver (f1bad ++ f1) t1) (block 0xFFFF [0x00]) =
        .next (received 0xFFFF f1 none ⟨.badChecksum, 1, none⟩ (block 0xFFFF [])) ∧
      exec (.deliver (f1tail ++ f1) t1) (block 0xFFFF [0x00]) =
        .next (received 0xFFFF f1 none ⟨.badTail, 1, none⟩ (block 0xFFFF [])) := ⟨rfl, rfl⟩

theorem witness_TimestampIsOnlyCopied :
    exec (.deliver f1 t1) (block 0xFFFF []) =
      .next (received 0x0A34 [] (some (.meas 150 80 t1)) ⟨.ok, 0, some .meas⟩ (block 0xFFFF [])) := rfl

theorem witness_FrameRowsAreDeliveries : encode (.rxMeasurement 150 80 0x0A34 0x24 t1) = .deliver f1 t1 := rfl

/-- After noise and before another frame; and as its own row, at the smallest legal capacity. -/
theorem witness_MeasurementFrameMakesItsEvent :
    (fits (block 0xFFFF [0x00]) (f1 ++ f2) ∧ (block 0xFFFF [0x00]).buf ++ (f1 ++ f2) = [0x00] ++ f1 ++ f2 ∧
      (0xAA : Byte) ∉ [(0x00 : Byte)] ∧ aligned f1 ∧ f1.length = 10 ∧ rxValid f1 ∧ byteAt f1 1 = 0xC0) ∧
    ((capped 10 []).buf = [] ∧ (capped 10 []).params.legal = true ∧
      (let pm25 : Half := 150
       let pm10 : Half := 80
       let id : DevId := 0x0A34
       checksum [pm25.extractLsb' 0 8, pm25.extractLsb' 8 8, pm10.extractLsb' 0 8, pm10.extractLsb' 8 8,
         id.extractLsb' 0 8, id.extractLsb' 8 8] = 0x24)) :=
  ⟨⟨fits_of rfl, rfl, by decide, aligned_cons _, rfl, ⟨by decide, by decide⟩, by decide⟩, rfl, rfl, by decide⟩

theorem witness_AckFramesMakeTheirEvent :
    ((capped 10 []).buf = [] ∧ (capped 10 []).params.legal = true) ∧
    (let id : DevId := 0x0A34
     checksum [2, 1, 1, 0, id.extractLsb' 0 8, id.extractLsb' 8 8] = 0x42 ∧
     checksum [5, 1, 1, 0, id.extractLsb' 0 8, id.extractLsb' 8 8] = 0x45 ∧
     checksum [6, 1, 1, 0, id.extractLsb' 0 8, id.extractLsb' 8 8] = 0x46 ∧
     checksum [7, 1, 1, 0, id.extractLsb' 0 8, id.extractLsb' 8 8] = 0x47 ∧
     checksum [8, 1, 1, 0, id.extractLsb' 0 8, id.extractLsb' 8 8] = 0x48) := by decide

theorem witness_UnrecognisedAckIsDroppedButSetsTheId :
    (capped 10 []).buf = [] ∧ (capped 10 []).params.legal = true ∧ (4 : Byte) ∉ [(2 : Byte), 5, 6, 7, 8] ∧
      checksum [4, 0, 0, 0, (0x0A34 : DevId).extractLsb' 0 8, (0x0A34 : DevId).extractLsb' 8 8] = 0x42 := by decide

theorem witness_UnknownClassMakesItsEventAndKeepsTheId :
    (capped 10 []).buf = [] ∧ (capped 10 []).params.legal = true ∧ (0xB4 : Byte) ≠ 0xC0 ∧ (0xB4 : Byte) ≠ 0xC5 ∧
      checksum [1, 2, 3, 4, 5, 6] = 0x15 := by decide

theorem witness_FrameRowsWithWrongChecksumAreDiscarded :
    (capped 10 []).buf = [] ∧ (capped 10 []).params.legal = true ∧
      encode (.rxUnknownClass 0xB4 1 2 3 4 5 6 0x16 t1) = .deliver [0xAA, 0xB4, 1, 2, 3, 4, 5, 6, 0x16, 0xAB] t1 ∧
      encode (.rxMeasurement 0x0201 0x0403 0x0605 0x16 t1) =
        .deliver [0xAA, 0xC0, 1, 2, 3, 4, 5, 6, 0x16, 0xAB] t1 ∧
      checksum [1, 2, 3, 4, 5, 6] ≠ 0x16 := by decide

/-- A delivery that fills a finite buffer to its last byte. -/
theorem witness_EveryStepKeepsTheCapacityInvariant :
    ({ capped 10 [0xAA] with pending := [.deliver (List.replicate 9 0) t1] }).Inv ∧
      step { capped 10 [0xAA] with pending := [.deliver (List.replicate 9 0) t1] } =
        .next (received 0xFFFF [] none ⟨.badTail, 0, none⟩ (capped 10 [0xAA])) :=
  ⟨⟨by decide, by decide⟩, rfl⟩

theorem witness_BufferRestsAlignedUnlessValidationFailed :
    (step { block 0xFFFF [0xAA] with pending := [.deliver [0xC0] t1] } =
        .next (received 0xFFFF [0xAA, 0xC0] none ⟨.short, 0, none⟩ (block 0xFFFF [])) ∧
      restAligned ({ block 0xFFFF [0xAA] with pending := [.deliver [0xC0] t1] }).buf) ∧
    (exec (.deliver [] t1) (block 0xFFFF [0x00, 0xAA]) =
        .next (received 0xFFFF [0xAA] none ⟨.short, 1, none⟩ (block 0xFFFF [])) ∧
      ¬ (received 0xFFFF [0xAA] none ⟨.short, 1, none⟩ (block 0xFFFF [])).reports .badChecksum ∧
      ¬ (received 0xFFFF [0xAA] none ⟨.short, 1, none⟩ (block 0xFFFF [])).reports .badTail) := by
  refine ⟨⟨rfl, aligned_cons _, by decide⟩, rfl, ?_, ?_⟩ <;>
  · rintro ⟨x, hx, hc⟩
    cases hx
    cases hc

theorem witness_OnlyRepliesAndResetChangeTheSessionId :
    (step { block 0x0A34 [] with pending := [.ctrl 1] } =
        .next (received 0xFFFF [] none ⟨.ok, 0, none⟩ (block 0x0A34 [])) ∧ (0xFFFF : DevId) ≠ 0x0A34) ∧
    (step { block 0xFFFF [] with pending := [.deliver f1 t1] } =
        .next (received 0x0A34 [] (some (.meas 150 80 t1)) ⟨.ok, 0, some .meas⟩ (block 0xFFFF [])) ∧
      (0x0A34 : DevId) ≠ 0xFFFF) := ⟨⟨rfl, by decide⟩, rfl, by decide⟩

theorem witness_BufferOwnershipAndResumption :
    exec (decode (.cmd 0x2800000A34)) (block 0xFFFF [0xAA]) =
      .next (sent (outboundFrame 0x04 0 0 0 0 0x0A34) (block 0xFFFF [0xAA])) ∧
    exec (decode (.ctrl 0)) (block 0xFFFF [0xAA]) =
      .next (received 0xFFFF [] none ⟨.ok, 0, none⟩ (block 0xFFFF [])) ∧
    (exec (.deliver [0xAA] t0) (capped 11 [0x00]) =
        .next (received 0xFFFF [0xAA] none ⟨.short, 1, none⟩ (capped 11 [])) ∧
      fits (capped 11 [0x00]) ([0xAA] ++ f1.drop 1)) := ⟨rfl, rfl, rfl, fits_of rfl⟩

/-- One transaction on each port. -/
theorem witness_OutputsOfEachTransaction :
    exec (decode (.cmd 0x2800000A34)) (block 0xFFFF []) =
      .next (sent (outboundFrame 0x04 0 0 0 0 0x0A34) (block 0xFFFF [])) ∧
    exec (decode (.deliver f1 t1)) (block 0xFFFF []) =
      .next (received 0x0A34 [] (some (.meas 150 80 t1)) ⟨.ok, 0, some .meas⟩ (block 0xFFFF [])) ∧
    exec (decode (.ctrl 1)) (block 0x0A34 f1) =
      .next (received 0xFFFF [] none ⟨.ok, 0, none⟩ (block 0xFFFF [])) := ⟨rfl, rfl, rfl⟩

/-- Program P1 of section 3, its second and third transactions. -/
theorem witness_CommandUsesTheIdEarlierDeliveriesLeft :
    ({ State.reset with pending := [.deliver f1 t1, .cmd 0x2000000000] }).pending =
      .deliver f1 t1 :: .cmd 0x2000000000 :: [] ∧ (0x2000000000 : BitVec 40).getLsbD 35 = false ∧
    step { State.reset with pending := [.deliver f1 t1, .cmd 0x2000000000] } =
      .next (received 0x0A34 [] (some (.meas 150 80 t1)) ⟨.ok, 0, some .meas⟩
        { State.reset with pending := [.cmd 0x2000000000] }) ∧
    step (received 0x0A34 [] (some (.meas 150 80 t1)) ⟨.ok, 0, some .meas⟩
        { State.reset with pending := [.cmd 0x2000000000] }) =
      .next (sent (outboundFrame 0x04 0 0 0 0 0x0A34) (block 0x0A34 [])) :=
  ⟨rfl, by decide, rfl, rfl⟩

theorem witness_WireByteOrders :
    exec (.setDeviceId 0x1234 none) State.reset =
      .next (sent (outboundFrame 0x05 0 0 0x12 0x34 0xFFFF) State.reset) ∧
    exec (decode (.cmd 0x2800000A34)) State.reset =
      .next (sent (outboundFrame 0x04 0 0 0 0 0x0A34) State.reset) ∧
    (fits (block 0xFFFF [0x00]) (f1 ++ f2) ∧ (block 0xFFFF [0x00]).buf ++ (f1 ++ f2) = [0x00] ++ f1 ++ f2 ∧
      (0xAA : Byte) ∉ [(0x00 : Byte)] ∧ aligned f1 ∧ f1.length = 10 ∧ rxValid f1 ∧ byteAt f1 1 = 0xC0) :=
  ⟨rfl, rfl, fits_of rfl, rfl, by decide, aligned_cons _, rfl, ⟨by decide, by decide⟩, by decide⟩

theorem witness_ReadingsAreExactTenths : reading 0x0096 = reading 0x0096 := rfl

end Sys2Proof.Tests
end

section
/-! PROOFS. The family of 20_memory.md: the order of transactions (R54, R57), resynchronisation (R42, R43) and the
byte orders of the wire (R47). First the facts about the model, then the obligations. -/

namespace Sys2Proof.Proofs

open Sys2Proof Sys2Proof.Machine

/-! ## The host's sequence is only carried

`ts` stands for the transactions the host issues later. Every operation commutes with replacing them, so no operation
reads them or writes them. -/

/-- The same answer with the host's sequence replaced in the state it reaches, if any. -/
def answerWithPending (ts : List Transaction) : Result → Result
  | .next s => .next (s.withPending ts)
  | .fault e => .fault e
  | .refused r => .refused r

@[simp] theorem answerWithPending_next (ts : List Transaction) (s : State) :
    answerWithPending ts (.next s) = .next (s.withPending ts) := rfl

theorem interpret_withPending (f : RxFrame) (now : Timestamp) (d : Nat) (s : State) (ts : List Transaction) :
    interpret f now d (s.withPending ts) = (interpret f now d s).withPending ts := by
  unfold interpret interpretAck
  split
  · rfl
  · split
    · split <;> rfl
    · rfl

theorem frameBuffer_withPending (b : List Byte) (now : Timestamp) (d : Nat) (s : State) (ts : List Transaction) :
    frameBuffer b now d (s.withPending ts) = (frameBuffer b now d s).withPending ts := by
  unfold frameBuffer
  cases memReadFrame b with
  | none => rfl
  | some f =>
    cases hc : frameCheck f with
    | badChecksum => simp only [hc]; rfl
    | badTail => simp only [hc]; rfl
    | valid => simp only [hc]; exact interpret_withPending f now d (s.withBuf []) ts

theorem deliverChunk_withPending (chunk : List Byte) (now : Timestamp) (s : State) (ts : List Transaction) :
    deliverChunk chunk now (s.withPending ts) = answerWithPending ts (deliverChunk chunk now s) := by
  have ho : overflows (s.withPending ts) chunk = overflows s chunk := rfl
  cases h : overflows s chunk with
  | true => rw [deliverChunk_fault h, deliverChunk_fault (ho.trans h)]; rfl
  | false =>
    rw [deliverChunk_next h, deliverChunk_next (ho.trans h), frameBuffer_withPending]; rfl

theorem execSetWorkingPeriod_withPending (minutes : Half) (dev? : Option DevId) (s : State) (ts : List Transaction) :
    execSetWorkingPeriod minutes dev? (s.withPending ts) =
      answerWithPending ts (execSetWorkingPeriod minutes dev? s) := by
  cases h : periodOk s.params.periodCheck minutes <;>
    simp only [execSetWorkingPeriod, State.withPending_params, h] <;> rfl

/-- An instruction does the same whatever the host issues later. -/
theorem exec_withPending (i : Instr) (s : State) (ts : List Transaction) :
    exec i (s.withPending ts) = answerWithPending ts (exec i s) := by
  cases i with
  | setWorkingPeriod minutes dev? => exact execSetWorkingPeriod_withPending minutes dev? s ts
  | deliver | rxMeasurement | rxAckReportingMode | rxAckDeviceId | rxAckSleepWork | rxAckFirmwareVersion
  | rxAckWorkingPeriod | rxAckUnrecognised | rxUnknownClass => exact deliverChunk_withPending _ _ s ts
  | _ => rfl

/-- So the state an instruction reaches still holds the sequence it started with. -/
theorem exec_next_pending {i : Instr} {s t : State} (h : exec i s = .next t) : t.pending = s.pending := by
  have hw : exec i s = answerWithPending s.pending (exec i s) := exec_withPending i s s.pending
  rw [h, answerWithPending_next] at hw
  injection hw with ht
  rw [ht, State.withPending_pending]

/-- And with another sequence it reaches the same state but for that. -/
theorem exec_next_withPending {i : Instr} {s t : State} (h : exec i s = .next t) (ts : List Transaction) :
    exec i (s.withPending ts) = .next (t.withPending ts) := by
  rw [exec_withPending, h, answerWithPending_next]

/-- A step that answered leaves the host's sequence without its head. -/
theorem step_next_pending {s s₁ : State} {t : Transaction} {rest : List Transaction}
    (hp : s.pending = t :: rest) (h : step s = .next s₁) : s₁.pending = rest := by
  rw [step_cons hp] at h
  exact exec_next_pending h

/-! ## What a delivery keeps and counts -/

/-- Steps 3 to 5 report the count of step 2 and keep the resynchronised buffer, all of it but ten bytes, or nothing. -/
theorem frameBuffer_count_and_buf (b : List Byte) (now : Timestamp) (d : Nat) (s : State) :
    ∃ x, (frameBuffer b now d s).st = some x ∧ x.d = d ∧
      ((frameBuffer b now d s).buf = b ∨ (frameBuffer b now d s).buf = b.drop 10 ∨
        (frameBuffer b now d s).buf = []) := by
  obtain ⟨-, h⟩ | ⟨f, -, ⟨-, h⟩ | ⟨-, h⟩ | ⟨-, h⟩⟩ := frameBuffer_cases b now d s <;> rw [h]
  · exact ⟨_, rfl, rfl, .inl rfl⟩
  · exact ⟨_, rfl, rfl, .inr (.inl rfl)⟩
  · exact ⟨_, rfl, rfl, .inr (.inl rfl)⟩
  · obtain ⟨r, hr⟩ := interpret_status f now d (s.withBuf [])
    obtain ⟨-, hbuf, -, -⟩ := interpret_frame f now d (s.withBuf [])
    exact ⟨_, hr, rfl, .inr (.inr hbuf)⟩

theorem aligned_append {f : List Byte} (h : aligned f) (hne : f ≠ []) (rest : List Byte) : aligned (f ++ rest) := by
  intro x hx
  rw [List.head?_append_of_ne_nil _ hne] at hx
  exact h x hx

/-- Steps 3 to 5 on a valid frame interpret it. -/
theorem frameBuffer_valid {f : List Byte} (hl : f.length = 10) (hv : rxValid f) (rest : List Byte) (now : Timestamp)
    (d : Nat) (s : State) : frameBuffer (f ++ rest) now d s = interpreted f now d s := by
  obtain ⟨f0, f1, f2, f3, f4, f5, f6, f7, f8, f9, r, rfl⟩ := exists_frame hl.ge
  obtain rfl : r = [] := List.length_eq_zero_iff.mp (by simpa using hl)
  obtain ⟨hck, htail⟩ := hv
  have hck' : checksum [f2, f3, f4, f5, f6, f7] = f8 := hck
  have htail' : f9 = tailMarker := htail
  have hten := frameBuffer_ten f0 f1 f2 f3 f4 f5 f6 f7 f8 f9 rest now d s
  rwa [if_neg (not_not_intro hck'), if_neg (not_not_intro htail')] at hten

/-- A delivery whose resynchronised buffer is led by a valid frame interprets that frame (R146). -/
theorem exec_deliver_valid {chunk pre f rest : List Byte} {now : Timestamp} {s : State} (hf : fits s chunk)
    (he : s.buf ++ chunk = pre ++ f ++ rest) (hp : headMarker ∉ pre) (ha : aligned f) (hl : f.length = 10)
    (hv : rxValid f) : exec (.deliver chunk now) s = .next (interpreted f now pre.length s) := by
  have hne : f ≠ [] := List.ne_nil_of_length_pos (by omega)
  rw [List.append_assoc] at he
  rw [exec_deliver_parts hf he hp (aligned_append ha hne rest), frameBuffer_valid hl hv]

theorem interpreted_ev_of_measurement {f : List Byte} (h : byteAt f 1 = 0xC0) (now : Timestamp) (d : Nat)
    (s : State) : (interpreted f now d s).ev =
      some (.meas (u16le (byteAt f 2) (byteAt f 3)) (u16le (byteAt f 4) (byteAt f 5)) now) := by
  simp only [interpreted, if_pos h]

/-- A measurement and every acknowledgment set the session id (R172, R174). -/
theorem interpreted_devid_of_reply {f : List Byte} (h : byteAt f 1 = 0xC0 ∨ byteAt f 1 = 0xC5) (now : Timestamp)
    (d : Nat) (s : State) : (interpreted f now d s).devid = u16le (byteAt f 6) (byteAt f 7) := by
  unfold interpreted
  split
  · rfl
  · rename_i hm
    rw [if_pos (h.resolve_left hm)]
    split <;> rfl

/-! ## The id fields of an outbound frame (R66, R67) -/

section OutboundFrame

variable (p0 p1 p2 p6 p7 : Byte) (target : DevId)

@[simp] theorem byteAt_outboundFrame_eight : byteAt (outboundFrame p0 p1 p2 p6 p7 target) 8 = p6 := rfl

@[simp] theorem byteAt_outboundFrame_nine : byteAt (outboundFrame p0 p1 p2 p6 p7 target) 9 = p7 := rfl

@[simp] theorem byteAt_outboundFrame_fifteen :
    byteAt (outboundFrame p0 p1 p2 p6 p7 target) 15 = hi8 target := rfl

@[simp] theorem byteAt_outboundFrame_sixteen :
    byteAt (outboundFrame p0 p1 p2 p6 p7 target) 16 = lo8 target := rfl

end OutboundFrame

/-- The target of a command word: `DEV` under `DP = 1`, the session id otherwise (R75, R101). -/
theorem wordTarget_getD (W : BitVec 40) (v : DevId) :
    (wordTarget W).getD v = if W.getLsbD 35 then W.extractLsb' 0 16 else v := by
  unfold wordTarget
  split <;> rfl

/-- A command that emitted a frame emitted one for its target, and kept the session id. -/
theorem exec_cmd_emitted {W : BitVec 40} {s t : State} {F : List Byte} (h : exec (decode (.cmd W)) s = .next t)
    (hF : t.tx = some F) :
    (∃ p0 p1 p2 p6 p7, F = outboundFrame p0 p1 p2 p6 p7 ((wordTarget W).getD s.devid)) ∧ t.devid = s.devid := by
  obtain ⟨p0, p1, p2, p6, p7, -, -, he⟩ | ⟨he, -⟩ | ⟨he, -⟩ := exec_cmd_cases W s
  · rw [he, emitCommand_next] at h
    cases h
    exact ⟨⟨p0, p1, p2, p6, p7, (Option.some.inj hF).symm⟩, rfl⟩
  · rw [he, rejectCommand_next] at h
    cases h
    cases hF
  · rw [he, rejectCommand_next] at h
    cases h
    cases hF

/-! ## The five fields of R47 -/

theorem setDeviceId_ids_bigEndian {newId : DevId} {dev? : Option DevId} {s t : State} {F : List Byte}
    (h : exec (.setDeviceId newId dev?) s = .next t) (hF : t.tx = some F) :
    u16be (byteAt F 8) (byteAt F 9) = newId ∧ u16be (byteAt F 15) (byteAt F 16) = dev?.getD s.devid := by
  have he : exec (.setDeviceId newId dev?) s =
      emitCommand subDeviceId flagQuery 0 (hi8 newId) (lo8 newId) dev? s := rfl
  rw [he, emitCommand_next] at h
  cases h
  obtain rfl := Option.some.inj hF
  simp

theorem cmd_target_bigEndian {W : BitVec 40} {s t : State} {F : List Byte}
    (h : exec (decode (.cmd W)) s = .next t) (hF : t.tx = some F) :
    u16be (byteAt F 15) (byteAt F 16) = if W.getLsbD 35 then W.extractLsb' 0 16 else s.devid := by
  obtain ⟨⟨p0, p1, p2, p6, p7, rfl⟩, -⟩ := exec_cmd_emitted h hF
  simp [wordTarget_getD]

/-- A query sent to a learned id carries the two bytes the id came in, exchanged. -/
theorem queryData_exchanges_id_bytes {s : State} {l h : Byte} (hid : s.devid = u16le l h) :
    ∃ u, exec (.queryData none) s = .next u ∧ ∃ F, u.tx = some F ∧ byteAt F 15 = h ∧ byteAt F 16 = l := by
  have he : exec (.queryData none) s = emitCommand subQueryData flagQuery 0 0 0 none s := rfl
  refine ⟨_, he.trans (emitCommand_next _ _ _ _ _ _ _), _, rfl, ?_, ?_⟩ <;> simp [hid]

/-! ## The obligations -/

/-- Settles O7: no instruction reads or writes the host's sequence. -/
theorem transactionsTakeEffectInOneOrder : Obligations.TransactionsTakeEffectInOneOrder := by
  unfold Obligations.TransactionsTakeEffectInOneOrder
  intro s s₁ t u rest hp h
  refine ⟨step_cons (step_next_pending hp h), fun later => ?_⟩
  rw [step_cons hp] at h
  rw [step_cons (t := t) (rest := later) rfl]
  exact exec_next_withPending h later

/-- Settles O24, by what a delivery does to the two parts of its buffer. -/
theorem deliveryRemovesBytesBeforeTheFirstHead : Obligations.DeliveryRemovesBytesBeforeTheFirstHead := by
  unfold Obligations.DeliveryRemovesBytesBeforeTheFirstHead
  intro chunk now s t h
  obtain ⟨-, pre, b, he, hp, ha, rfl⟩ := exec_deliver_inv h
  obtain ⟨x, hst, hd, hbuf⟩ := frameBuffer_count_and_buf b now pre.length s
  exact ⟨pre, b, x, he, hp, ha, hst, hd, hbuf⟩

/-- Settles O52: the command is the next transaction, and the frame it emits is for the id it finds. -/
theorem commandUsesTheIdEarlierDeliveriesLeft : Obligations.CommandUsesTheIdEarlierDeliveriesLeft := by
  unfold Obligations.CommandUsesTheIdEarlierDeliveriesLeft
  intro chunk now W rest s t₁ t₂ F hp hdp h₁ h₂ hF
  rw [step_cons (step_next_pending hp h₁)] at h₂
  obtain ⟨⟨p0, p1, p2, p6, p7, rfl⟩, hid⟩ := exec_cmd_emitted h₂ hF
  have ht : (wordTarget W).getD t₁.devid = t₁.devid := by rw [wordTarget_getD, hdp]; rfl
  exact ⟨congrArg hi8 ht, congrArg lo8 ht, hid⟩

/-- Settles O53: the outbound ids by the frame a command emits, the inbound fields by the frame a delivery validates. -/
theorem wireByteOrders : Obligations.WireByteOrders := by
  unfold Obligations.WireByteOrders
  refine ⟨fun _ _ _ _ _ => setDeviceId_ids_bigEndian, fun _ _ _ _ => cmd_target_bigEndian, ?_⟩
  intro chunk pre f rest now s hf he hp ha hl hv
  exact ⟨_, exec_deliver_valid hf he hp ha hl hv,
    fun hm => interpreted_ev_of_measurement hm _ _ _,
    fun hr => interpreted_devid_of_reply hr _ _ _,
    fun hr => queryData_exchanges_id_bytes (interpreted_devid_of_reply hr _ _ _)⟩

end Sys2Proof.Proofs
end

section
/-! PROOFS. The family of 30_encoding.md: the layout of outbound frames (R60 to R67) and the validity test of inbound
ones (R73). First the facts about the model, then the obligations. -/

namespace Sys2Proof.Proofs

open Sys2Proof Sys2Proof.Machine

/-! ## The bytes of an outbound frame (R60, R65, R69) -/

theorem slice_outboundFrame (p0 p1 p2 p6 p7 : Byte) (target : DevId) :
    slice (outboundFrame p0 p1 p2 p6 p7 target) 2 16 = payload p0 p1 p2 p6 p7 target := rfl

theorem outboundFrame_txValid (p0 p1 p2 p6 p7 : Byte) (target : DevId) :
    txValid (outboundFrame p0 p1 p2 p6 p7 target) := by
  refine ⟨rfl, rfl, rfl, ?_, rfl⟩
  rw [slice_outboundFrame]
  rfl

/-- Payload bytes 3 to 5 and 8 to 12 are zero. -/
theorem byteAt_outboundFrame_unused (p0 p1 p2 p6 p7 : Byte) (target : DevId) :
    ∀ i ∈ [5, 6, 7, 10, 11, 12, 13, 14], byteAt (outboundFrame p0 p1 p2 p6 p7 target) i = 0 := by
  simp [byteAt, outboundFrame]

theorem rejectCommand_emits_nothing {code : StatusCode} {s t : State} (h : rejectCommand code s = .next t) :
    t.tx = none := by
  rw [rejectCommand_next] at h
  cases h
  rfl

/-- What a command that emitted a frame put into it: a sub-command of R62, and in the new-id slot zeros unless it is
`OP 0x3`. -/
theorem exec_cmd_emitted_sub_and_slot {W : BitVec 40} {s t : State} {F : List Byte}
    (h : exec (decode (.cmd W)) s = .next t) (hF : t.tx = some F) :
    ∃ p0 p1 p2 p6 p7, F = outboundFrame p0 p1 p2 p6 p7 ((wordTarget W).getD s.devid) ∧
      p0 ∈ [(2 : Byte), 4, 5, 6, 7, 8] ∧ (W.extractLsb' 36 4 ≠ 3#4 → p6 = 0 ∧ p7 = 0) := by
  obtain ⟨p0, p1, p2, p6, p7, hsub, hslot, he⟩ | ⟨he, -⟩ | ⟨he, -⟩ := exec_cmd_cases W s
  · rw [he, emitCommand_next] at h
    cases h
    exact ⟨p0, p1, p2, p6, p7, (Option.some.inj hF).symm, hsub, hslot⟩
  · rw [rejectCommand_emits_nothing (he.symm.trans h)] at hF
    cases hF
  · rw [rejectCommand_emits_nothing (he.symm.trans h)] at hF
    cases hF

/-! ## When a delivery reports `OK` (R73, R144) -/

theorem reports_iff_of_st {s : State} {x : Status} (h : s.st = some x) (c : StatusCode) :
    s.reports c ↔ x.code = c := by
  simp [State.reports, h]

/-- Whatever the frame, the interpreter reports `OK`. -/
theorem interpreted_reports_ok (f : List Byte) (now : Timestamp) (d : Nat) (s : State) :
    (interpreted f now d s).reports .ok := by
  unfold interpreted
  split
  · exact ⟨_, rfl, rfl⟩
  · split
    · split <;> exact ⟨_, rfl, rfl⟩
    · exact ⟨_, rfl, rfl⟩

/-- Steps 3 to 5 report `OK` on ten bytes exactly where these pass both tests. -/
theorem frameBuffer_reports_ok_iff {f : List Byte} (hl : f.length = 10) (rest : List Byte) (now : Timestamp) (d : Nat)
    (s : State) : (frameBuffer (f ++ rest) now d s).reports .ok ↔ rxValid f := by
  constructor
  · intro h
    obtain ⟨f0, f1, f2, f3, f4, f5, f6, f7, f8, f9, r, rfl⟩ := exists_frame hl.ge
    simp only [List.cons_append, frameBuffer_ten] at h
    by_cases hck : checksum [f2, f3, f4, f5, f6, f7] = f8
    · by_cases htail : f9 = tailMarker
      · exact ⟨hck, htail⟩
      · rw [if_neg (not_not_intro hck), if_pos htail, reports_iff_of_st rfl] at h
        cases h
    · rw [if_pos hck, reports_iff_of_st rfl] at h
      cases h
  · intro hv
    rw [frameBuffer_valid hl hv]
    exact interpreted_reports_ok f now d s

/-! ## The obligations -/

/-- Settles O18: a frame a command emits is an `outboundFrame` of a sub-command of R62, for the word's target. -/
theorem everyOutboundFrameHasTheLayout : Obligations.EveryOutboundFrameHasTheLayout := by
  unfold Obligations.EveryOutboundFrameHasTheLayout
  intro W s t F h hF
  obtain ⟨p0, p1, p2, p6, p7, rfl, hsub, hslot⟩ := exec_cmd_emitted_sub_and_slot h hF
  obtain ⟨hlen, hhead, hclass, hck, htail⟩ := outboundFrame_txValid p0 p1 p2 p6 p7 ((wordTarget W).getD s.devid)
  have hzero := byteAt_outboundFrame_unused p0 p1 p2 p6 p7 ((wordTarget W).getD s.devid)
  have htarget := wordTarget_getD W s.devid
  exact ⟨hlen, congrArg List.length (slice_outboundFrame ..), hhead, hclass, hsub,
    hzero 5 (by decide), hzero 6 (by decide), hzero 7 (by decide), hslot,
    hzero 10 (by decide), hzero 11 (by decide), hzero 12 (by decide), hzero 13 (by decide), hzero 14 (by decide),
    congrArg hi8 htarget, congrArg lo8 htarget, hck, htail⟩

/-- Settles O27: the delivery runs steps 3 to 5 on the ten bytes and the rest. -/
theorem deliveryIsOkExactlyWhenTheFrameIsValid : Obligations.DeliveryIsOkExactlyWhenTheFrameIsValid := by
  unfold Obligations.DeliveryIsOkExactlyWhenTheFrameIsValid
  intro chunk pre f rest now s hf he hp ha hl
  have hne : f ≠ [] := List.ne_nil_of_length_pos (by omega)
  rw [List.append_assoc] at he
  exact ⟨_, exec_deliver_parts hf he hp (aligned_append ha hne rest), frameBuffer_reports_ok_iff hl rest now _ s⟩

end Sys2Proof.Proofs
end

section
/-! PROOFS. The family of 40_checksum.md: the checksum as a number (R90). -/

namespace Sys2Proof.Proofs

open Sys2Proof Sys2Proof.Machine

/-- R90: the accumulator starts from 0, and its low 8 bits are its residue modulo 256. -/
theorem checksum_toNat (s : List Byte) : (checksum s).toNat = (s.map BitVec.toNat).sum % 256 := by
  rw [checksum, checksum_acc, Nat.zero_add, BitVec.toNat_ofNat]

@[simp] theorem checksum_nil : checksum [] = 0 := rfl

/-- Settles O21: `checksum_acc` turns the model's accumulation into the sum, by induction on the bytes. -/
theorem checksumIsTheSumModulo256 : Obligations.ChecksumIsTheSumModulo256 := by
  unfold Obligations.ChecksumIsTheSumModulo256
  exact ⟨checksum_toNat, checksum_nil⟩

end Sys2Proof.Proofs
end

section
/-! PROOFS. The family of 42_framer.md: what a delivery does to a short buffer (R143), to an invalid frame (R145) and to
a valid one (R146), and who reads and writes the buffer (R157). First the facts about the model, then the obligations. -/

namespace Sys2Proof.Proofs

open Sys2Proof Sys2Proof.Machine

/-! ## Steps 3 to 5 by what leads the buffer (R143 to R146) -/

theorem frameBuffer_short {b : List Byte} (hl : b.length < 10) (now : Timestamp) (d : Nat) (s : State) :
    frameBuffer b now d s = { s with buf := b, tx := none, ev := none, st := some ⟨.short, d, none⟩ } := by
  rw [frameBuffer, memReadFrame_short hl]
  rfl

theorem frameBuffer_badChecksum {f : List Byte} (hl : f.length = 10) (hck : checksum (slice f 2 7) ≠ byteAt f 8)
    (rest : List Byte) (now : Timestamp) (d : Nat) (s : State) :
    frameBuffer (f ++ rest) now d s =
      { s with buf := rest, tx := none, ev := none, st := some ⟨.badChecksum, d, none⟩ } := by
  obtain ⟨f0, f1, f2, f3, f4, f5, f6, f7, f8, f9, r, rfl⟩ := exists_frame hl.ge
  obtain rfl : r = [] := List.length_eq_zero_iff.mp (by simpa using hl)
  exact (frameBuffer_ten ..).trans (if_pos hck)

/-- The tail test is reached after the checksum test alone (R218). -/
theorem frameBuffer_badTail {f : List Byte} (hl : f.length = 10) (hck : checksum (slice f 2 7) = byteAt f 8)
    (htail : byteAt f 9 ≠ tailMarker) (rest : List Byte) (now : Timestamp) (d : Nat) (s : State) :
    frameBuffer (f ++ rest) now d s =
      { s with buf := rest, tx := none, ev := none, st := some ⟨.badTail, d, none⟩ } := by
  obtain ⟨f0, f1, f2, f3, f4, f5, f6, f7, f8, f9, r, rfl⟩ := exists_frame hl.ge
  obtain rfl : r = [] := List.length_eq_zero_iff.mp (by simpa using hl)
  exact (frameBuffer_ten ..).trans ((if_neg (not_not_intro hck)).trans (if_pos htail))

/-- `SHORT` is reported for fewer than ten bytes only. -/
theorem length_lt_of_frameBuffer_short {b : List Byte} {now : Timestamp} {d : Nat} {s : State} {x : Status}
    (hst : (frameBuffer b now d s).st = some x) (hx : x.code = .short) : b.length < 10 := by
  obtain ⟨hl, -⟩ | ⟨f, -, ⟨-, h⟩ | ⟨-, h⟩ | ⟨-, h⟩⟩ := frameBuffer_cases b now d s
  · exact hl
  · rw [h] at hst
    cases hst
    cases hx
  · rw [h] at hst
    cases hst
    cases hx
  · obtain ⟨r, hr⟩ := interpret_status f now d (s.withBuf [])
    rw [h, hr] at hst
    cases hst
    cases hx

/-! ## What steps 3 to 5 do not read -/

/-- The same state, its status record carrying another resynchronisation count. -/
def withCount (e : Nat) (s : State) : State := { s with st := s.st.map fun y => { y with d := e } }

theorem withCount_of_st {s : State} {y : Status} (h : s.st = some y) (e : Nat) :
    withCount e s = { s with st := some { y with d := e } } := by
  rw [withCount, h]
  rfl

theorem interpret_withCount (f : RxFrame) (now : Timestamp) (d e : Nat) (s : State) :
    interpret f now e s = withCount e (interpret f now d s) := by
  unfold interpret interpretAck
  split
  · rfl
  · split
    · split <;> rfl
    · rfl

/-- The resynchronisation count is only carried to the status record. -/
theorem frameBuffer_withCount (b : List Byte) (now : Timestamp) (d e : Nat) (s : State) :
    frameBuffer b now e s = withCount e (frameBuffer b now d s) := by
  unfold frameBuffer
  cases memReadFrame b with
  | none => rfl
  | some f =>
    cases hc : frameCheck f with
    | badChecksum => simp only [hc]; rfl
    | badTail => simp only [hc]; rfl
    | valid => simp only [hc]; exact interpret_withCount f now d e (s.withBuf [])

theorem interpret_finish (f : RxFrame) (now : Timestamp) (d : Nat) (s : State) (tx : Option (List Byte))
    (ev : Option Event) (st : Status) : interpret f now d (s.finish tx ev st) = interpret f now d s := by
  unfold interpret interpretAck
  split
  · rfl
  · split
    · split <;> rfl
    · rfl

/-- The buffer and the outputs an earlier transaction left are overwritten unread: steps 3 to 5 work on the buffer they
are given. -/
theorem frameBuffer_finish_withBuf (b b' : List Byte) (now : Timestamp) (d : Nat) (s : State)
    (tx : Option (List Byte)) (ev : Option Event) (st : Status) :
    frameBuffer b now d ((s.withBuf b').finish tx ev st) = frameBuffer b now d s := by
  unfold frameBuffer
  cases memReadFrame b with
  | none => rfl
  | some f =>
    cases hc : frameCheck f with
    | badChecksum => simp only [hc]; rfl
    | badTail => simp only [hc]; rfl
    | valid => simp only [hc]; exact interpret_finish f now d (s.withBuf []) tx ev st

/-! ## Deliveries -/

/-- A delivery on a buffer whose resynchronised part starts with ten given bytes. -/
theorem exec_deliver_frame {chunk pre f rest : List Byte} {now : Timestamp} {s : State} (hf : fits s chunk)
    (he : s.buf ++ chunk = pre ++ f ++ rest) (hp : headMarker ∉ pre) (ha : aligned f) (hl : f.length = 10) :
    exec (.deliver chunk now) s = .next (frameBuffer (f ++ rest) now pre.length s) := by
  have hne : f ≠ [] := List.ne_nil_of_length_pos (by omega)
  rw [List.append_assoc] at he
  exact exec_deliver_parts hf he hp (aligned_append ha hne rest)

/-- What a delivery that reported `SHORT` did: it dropped the bytes before the first head marker and kept the rest. -/
theorem exec_deliver_short_inv {chunk : List Byte} {now : Timestamp} {s t : State} {x : Status}
    (h : exec (.deliver chunk now) s = .next t) (hst : t.st = some x) (hx : x.code = .short) :
    ∃ pre b, s.buf ++ chunk = pre ++ b ∧ headMarker ∉ pre ∧ x.d = pre.length ∧
      t = (s.withBuf b).finish none none x := by
  obtain ⟨-, pre, b, he, hp, -, rfl⟩ := exec_deliver_inv h
  have hl := length_lt_of_frameBuffer_short hst hx
  rw [frameBuffer_short hl] at hst ⊢
  cases hst
  exact ⟨pre, b, he, hp, rfl, rfl⟩

/-- A split of what a short delivery kept together with the next chunk is, the bytes it dropped put in front, a split
of both chunks: so the next delivery runs steps 3 to 5 on the buffer one delivery of both would have run them on. -/
theorem exec_deliver_resumes {first second : List Byte} {now now' : Timestamp} {s t : State} {x : Status}
    (h : exec (.deliver first now) s = .next t) (hst : t.st = some x) (hx : x.code = .short)
    (hf : fits s (first ++ second)) :
    ∃ b d, exec (.deliver second now') t = .next (frameBuffer b now' d s) ∧
      exec (.deliver (first ++ second) now') s = .next (frameBuffer b now' (x.d + d) s) := by
  obtain ⟨pre, kept, he, hp, hd, rfl⟩ := exec_deliver_short_inv h hst hx
  obtain ⟨pre', he', hp', -, ha⟩ := exists_sync_parts (kept ++ second)
  have hboth : s.buf ++ (first ++ second) = (pre ++ pre') ++ resync (kept ++ second) := by
    rw [← List.append_assoc, he, List.append_assoc, List.append_assoc, ← he']
  have hfit : fits ((s.withBuf kept).finish none none x) second := by
    intro c hc
    have hlen := congrArg List.length he
    have hcap := hf c hc
    simp only [List.length_append, State.finish_buf, State.withBuf_buf] at hlen hcap ⊢
    omega
  have hno : headMarker ∉ pre ++ pre' := by
    rw [List.mem_append, not_or]
    exact ⟨hp, hp'⟩
  refine ⟨resync (kept ++ second), pre'.length, ?_, ?_⟩
  · rw [exec_deliver_parts hfit he' hp' ha, frameBuffer_finish_withBuf]
  · rw [exec_deliver_parts hf hboth hno ha, List.length_append, hd]

/-! ## Commands and controls do not read the buffer -/

/-- A command completes with the buffer it found, and does the same on another buffer. -/
theorem exec_cmd_withBuf (W : BitVec 40) (s : State) (b : List Byte) :
    ∃ t, exec (decode (.cmd W)) s = .next t ∧ t.buf = s.buf ∧
      exec (decode (.cmd W)) (s.withBuf b) = .next (t.withBuf b) := by
  simp only [decode, decodeCmd]
  split
  case h_7 =>
    cases hp : periodOk s.params.periodCheck (argField W) <;>
      simp only [exec, execSetWorkingPeriod, State.withBuf_params, hp] <;> exact ⟨_, rfl, rfl, rfl⟩
  all_goals exact ⟨_, rfl, rfl, rfl⟩

/-- A control empties the buffer whatever it held. -/
theorem exec_ctrl_withBuf (code : BitVec 1) (s : State) (b : List Byte) :
    ∃ t, exec (decode (.ctrl code)) s = .next t ∧ t.buf = [] ∧
      exec (decode (.ctrl code)) (s.withBuf b) = .next t := by
  obtain ⟨rfl, h⟩ | ⟨rfl, h⟩ := exec_ctrl_cases code s <;> exact ⟨_, h, rfl, rfl⟩

/-! ## The obligations -/

/-- Settles O25: fewer than ten bytes are no frame, so steps 3 to 5 keep them. -/
theorem shortDeliveryWaits : Obligations.ShortDeliveryWaits := by
  unfold Obligations.ShortDeliveryWaits
  intro chunk pre b now s hf he hp ha hl
  rw [exec_deliver_parts hf he hp ha, frameBuffer_short hl]

/-- Settles O26, by the two ways steps 3 to 5 turn ten bytes away. -/
theorem invalidFrameLosesExactlyTenBytes : Obligations.InvalidFrameLosesExactlyTenBytes := by
  unfold Obligations.InvalidFrameLosesExactlyTenBytes
  intro chunk pre f rest now s hf he hp ha hl
  rw [exec_deliver_frame hf he hp ha hl]
  exact ⟨fun hck => by rw [frameBuffer_badChecksum hl hck],
    fun hck htail => by rw [frameBuffer_badTail hl hck htail]⟩

/-- Settles O28: a valid frame at the head of the resynchronised buffer is interpreted. -/
theorem validFrameIsInterpretedAndTheRestDiscarded : Obligations.ValidFrameIsInterpretedAndTheRestDiscarded := by
  unfold Obligations.ValidFrameIsInterpretedAndTheRestDiscarded
  intro chunk pre f rest now s
  exact exec_deliver_valid

/-- Settles O50: commands and controls do the same on every buffer; a resumed delivery runs steps 3 to 5 on the buffer of
the single one, and these carry the count to the status record alone. -/
theorem bufferOwnershipAndResumption : Obligations.BufferOwnershipAndResumption := by
  unfold Obligations.BufferOwnershipAndResumption
  refine ⟨fun W s t b h => ?_, fun code s t b h => ?_, fun first second now now' s t x h hst hx hf => ?_⟩
  · obtain ⟨u, hu, hbuf, hother⟩ := exec_cmd_withBuf W s b
    cases hu.symm.trans h
    exact ⟨hbuf, hother⟩
  · obtain ⟨u, hu, hbuf, hother⟩ := exec_ctrl_withBuf code s b
    cases hu.symm.trans h
    exact ⟨hbuf, hother⟩
  · obtain ⟨b, d, hsecond, hboth⟩ := exec_deliver_resumes (now' := now') h hst hx hf
    obtain ⟨y, hy, hyd, -⟩ := frameBuffer_count_and_buf b now' d s
    refine ⟨_, y, hsecond, hy, ?_⟩
    rw [hboth, frameBuffer_withCount b now' d, withCount_of_st hy, hyd]

end Sys2Proof.Proofs
end

section
/-! PROOFS. The family of 43_interpreter.md: what a validated measurement frame does (R171 to R173). First the facts
about the model, then the obligation. -/

namespace Sys2Proof.Proofs

open Sys2Proof Sys2Proof.Machine

/-! ## The interpreter on a frame of class `0xC0` -/

theorem interpreted_of_measurement {f : List Byte} (h : byteAt f 1 = measurementClass) (now : Timestamp) (d : Nat)
    (s : State) :
    interpreted f now d s = { s with
      devid := u16le (byteAt f 6) (byteAt f 7), buf := [], tx := none
      ev := some (.meas (u16le (byteAt f 2) (byteAt f 3)) (u16le (byteAt f 4) (byteAt f 5)) now)
      st := some ⟨.ok, d, some .meas⟩ } :=
  if_pos h

/-! ## The bytes of a measurement frame -/

section MeasurementBytes

variable (pm25 pm10 : Half) (id : DevId) (ck : Byte)

@[simp] theorem length_measurementBytes : (measurementBytes pm25 pm10 id ck).length = 10 := rfl

@[simp] theorem byteAt_measurementBytes_class :
    byteAt (measurementBytes pm25 pm10 id ck) 1 = measurementClass := rfl

theorem aligned_measurementBytes : aligned (measurementBytes pm25 pm10 id ck) :=
  fun _ h => (Option.some.inj h).symm

/-- The frame carries its tail marker, so its checksum byte alone decides (R73). -/
theorem rxValid_measurementBytes_iff :
    rxValid (measurementBytes pm25 pm10 id ck) ↔
      checksum [lo8 pm25, hi8 pm25, lo8 pm10, hi8 pm10, lo8 id, hi8 id] = ck :=
  and_iff_left rfl

/-- The interpreter assembles the three values the bytes were split from. -/
theorem interpreted_measurementBytes (now : Timestamp) (d : Nat) (s : State) :
    interpreted (measurementBytes pm25 pm10 id ck) now d s = { s with
      devid := id, buf := [], tx := none, ev := some (.meas pm25 pm10 now), st := some ⟨.ok, d, some .meas⟩ } := by
  rw [interpreted_of_measurement (byteAt_measurementBytes_class ..)]
  simp [measurementBytes, byteAt]

end MeasurementBytes

/-! ## Frames delivered to an empty buffer -/

/-- A chunk that is one valid frame, on the empty buffer of a legal instance, is interpreted (R152). -/
theorem exec_deliver_valid_on_empty {f : List Byte} {now : Timestamp} {s : State} (hb : s.buf = [])
    (hleg : s.params.legal = true) (ha : aligned f) (hl : f.length = 10) (hv : rxValid f) :
    exec (.deliver f now) s = .next (interpreted f now 0 s) := by
  have he : s.buf ++ f = [] ++ f ++ [] := by rw [hb, List.append_nil]
  exact exec_deliver_valid (fits_one_frame hb hleg hl.le) he List.not_mem_nil ha hl hv

/-- The row is the delivery of its frame's bytes (log 4). -/
theorem exec_rxMeasurement (pm25 pm10 : Half) (id : DevId) (ck : Byte) (now : Timestamp) (s : State) :
    exec (.rxMeasurement pm25 pm10 id ck now) s = exec (.deliver (measurementBytes pm25 pm10 id ck) now) s := rfl

/-! ## The obligation -/

/-- Settles O39: the delivery hands the valid frame to the interpreter, and the row's bytes are such a frame. -/
theorem measurementFrameMakesItsEvent : Obligations.MeasurementFrameMakesItsEvent := by
  unfold Obligations.MeasurementFrameMakesItsEvent
  refine ⟨fun chunk pre f rest now s hf he hp ha hl hv hm => ?_, fun pm25 pm10 id ck now s hb hleg hck => ?_,
    u16le_toNat⟩
  · rw [exec_deliver_valid hf he hp ha hl hv, interpreted_of_measurement hm]
  · have hv : rxValid (measurementBytes pm25 pm10 id ck) := (rxValid_measurementBytes_iff ..).mpr hck
    rw [exec_rxMeasurement, exec_deliver_valid_on_empty hb hleg (aligned_measurementBytes pm25 pm10 id ck)
      (length_measurementBytes ..) hv, interpreted_measurementBytes]

end Sys2Proof.Proofs
end

section
/-! PROOFS. Decoding and encoding (R68, R70 to R72, R75 to R80): the round trip, the form checks, and the bits of a
command word that its operation reads. First the facts about the decoder, then the obligations. -/

namespace Sys2Proof.Proofs

open Sys2Proof Sys2Proof.Machine

/-! ## The fields of a command word -/

@[simp] theorem selField_cmdWord_selArg (op : BitVec 4) (sel : Bool) (dev? : Option DevId) :
    selField (cmdWord op (selArg sel) dev?) = sel := by
  rw [selField, argField_cmdWord]
  cases sel <;> rfl

@[simp] theorem modeOperand_cmdWord (op : BitVec 4) (mode : ReportingMode) (dev? : Option DevId) :
    modeOperand (cmdWord op (selArg (mode == .query)) dev?) = mode := by
  rw [modeOperand, selField_cmdWord_selArg]
  cases mode <;> rfl

@[simp] theorem powerOperand_cmdWord (op : BitVec 4) (mode : SleepWork) (dev? : Option DevId) :
    powerOperand (cmdWord op (selArg (mode == .work)) dev?) = mode := by
  rw [powerOperand, selField_cmdWord_selArg]
  cases mode <;> rfl

/-- R83: an assembled word has `RSV = 0`. -/
theorem rsvField_cmdWord (op : BitVec 4) (arg : Half) (dev? : Option DevId) :
    (cmdWord op arg dev?).extractLsb' 32 3 = 0 := by
  apply BitVec.eq_of_toNat_eq
  have ha := arg.isLt
  have hd := (dev?.getD 0).isLt
  have h0 : (0 : BitVec 3).toNat = 0 := rfl
  simp only [BitVec.extractLsb'_toNat, cmdWord_toNat, Nat.shiftRight_eq_div_pow, h0]
  split <;> omega

/-- The selector is bit 16 of the word. -/
theorem selField_eq (W : BitVec 40) : selField W = W.getLsbD 16 := by
  simp [selField, argField]

theorem modeOperand_eq (W : BitVec 40) : modeOperand W = if W.getLsbD 16 then .query else .active := by
  rw [modeOperand, selField_eq]

theorem powerOperand_eq (W : BitVec 40) : powerOperand W = if W.getLsbD 16 then .work else .sleep := by
  rw [powerOperand, selField_eq]

/-! ## Frame rows -/

/-- A frame-shaped chunk is named by its class and sub-command. -/
theorem decodeDelivery_otherClassBytes (cls d2 d3 d4 d5 d6 d7 ck : Byte) (now : Timestamp) :
    decodeDelivery (otherClassBytes cls d2 d3 d4 d5 d6 d7 ck) now =
      classifyFrame cls d2 d3 d4 d5 d6 d7 ck now := rfl

/-- A frame of class `0xC5` is named by its sub-command. -/
theorem decodeDelivery_ackBytes (sub d3 d4 d5 : Byte) (id : DevId) (ck : Byte) (now : Timestamp) :
    decodeDelivery (ackBytes sub d3 d4 d5 id ck) now =
      classifyFrame ackClass sub d3 d4 d5 (lo8 id) (hi8 id) ck now := rfl

/-- Outside `ACK_SUBCMDS` the sub-command is an operand. -/
theorem classifyFrame_unrecognised {sub : Byte} (h : ackSubcmds.contains sub = false) (d3 d4 d5 d6 d7 ck : Byte)
    (now : Timestamp) :
    classifyFrame ackClass sub d3 d4 d5 d6 d7 ck now = .rxAckUnrecognised sub d3 d4 d5 (u16le d6 d7) ck now := by
  simp only [List.contains_eq_mem, List.mem_cons, List.not_mem_nil, or_false, decide_eq_false_iff_not, not_or] at h
  obtain ⟨h2, h5, h6, h7, h8⟩ := h
  rw [classifyFrame, if_neg (by decide), if_pos rfl, if_neg h2, if_neg h5, if_neg h6, if_neg h7, if_neg h8]

theorem classifyFrame_unknown {cls : Byte} (hm : cls ≠ measurementClass) (ha : cls ≠ ackClass)
    (d2 d3 d4 d5 d6 d7 ck : Byte) (now : Timestamp) :
    classifyFrame cls d2 d3 d4 d5 d6 d7 ck now = .rxUnknownClass cls d2 d3 d4 d5 d6 d7 ck now := by
  rw [classifyFrame, if_neg hm, if_neg ha]

/-- Every row the class and sub-command select passes its form check. -/
theorem wf_classifyFrame (cls d2 d3 d4 d5 d6 d7 ck : Byte) (now : Timestamp) :
    (classifyFrame cls d2 d3 d4 d5 d6 d7 ck now).wf = true := by
  by_cases hm : cls = measurementClass
  · rw [classifyFrame, if_pos hm]; rfl
  · by_cases ha : cls = ackClass
    · subst ha
      cases hs : ackSubcmds.contains d2 with
      | true =>
        simp only [List.contains_eq_mem, List.mem_cons, List.not_mem_nil, or_false, decide_eq_true_eq] at hs
        obtain rfl | rfl | rfl | rfl | rfl := hs <;> rfl
      | false => rw [classifyFrame_unrecognised hs, Instr.wf, hs]; rfl
    · rw [classifyFrame_unknown hm ha]
      rw [Instr.wf, beq_false_of_ne hm, beq_false_of_ne ha]; rfl

/-! ## The round trip -/

/-- The decoder reads back every operand the encoder writes. -/
theorem decode_encode {i : Instr} (h : i.wf = true) : decode (encode i) = i := by
  cases i with
  | deliver chunk now => exact decodeDelivery_of_not_frameShaped (by simpa [Instr.wf] using h) now
  | rxMeasurement pm25 pm10 id ck now =>
    exact (decodeDelivery_otherClassBytes ..).trans (by simp [classifyFrame])
  | rxAckReportingMode | rxAckDeviceId | rxAckSleepWork | rxAckFirmwareVersion | rxAckWorkingPeriod =>
    exact (decodeDelivery_ackBytes ..).trans (by simp [classifyFrame])
  | rxAckUnrecognised sub d3 d4 d5 id ck now =>
    have hs : ackSubcmds.contains sub = false := by simpa [Instr.wf] using h
    exact (decodeDelivery_ackBytes ..).trans (by rw [classifyFrame_unrecognised hs, u16le_lo8_hi8])
  | rxUnknownClass cls =>
    obtain ⟨hm, ha⟩ : cls ≠ measurementClass ∧ cls ≠ ackClass := by simpa [Instr.wf] using h
    exact (decodeDelivery_otherClassBytes ..).trans (classifyFrame_unknown hm ha ..)
  | clearBuffer | reset => rfl
  | _ => simp [encode, decode, decodeCmd]

/-- No command has a form check. -/
theorem wf_decodeCmd (W : BitVec 40) : (decodeCmd W).wf = true := by
  unfold decodeCmd
  split <;> rfl

theorem wf_decodeDelivery (chunk : List Byte) (now : Timestamp) : (decodeDelivery chunk now).wf = true := by
  obtain ⟨-, cls, d2, d3, d4, d5, d6, d7, ck, -, h⟩ | ⟨hs, h⟩ := decodeDelivery_cases chunk now <;> rw [h]
  · exact wf_classifyFrame ..
  · rw [Instr.wf, hs]; rfl

theorem wf_decode (t : Transaction) : (decode t).wf = true := by
  cases t with
  | cmd W => exact wf_decodeCmd W
  | deliver chunk now => exact wf_decodeDelivery chunk now
  | ctrl code => simp only [decode, decodeCtrl]; split <;> rfl

/-- A delivery has one name. -/
theorem encode_decodeDelivery (chunk : List Byte) (now : Timestamp) :
    encode (decodeDelivery chunk now) = .deliver chunk now := by
  obtain ⟨-, cls, d2, d3, d4, d5, d6, d7, ck, rfl, h⟩ | ⟨-, h⟩ := decodeDelivery_cases chunk now <;> rw [h]
  · exact encode_classifyFrame ..
  · rfl

/-- A command word comes back as an assembled word of the same `OP`. -/
theorem encode_decodeCmd (W : BitVec 40) :
    ∃ arg dev?, encode (decodeCmd W) = .cmd (cmdWord (opField W) arg dev?) := by
  have hop : ∀ k : BitVec 4, (opField W).toNat = k.toNat → k = opField W :=
    fun k h => (BitVec.eq_of_toNat_eq h).symm
  unfold decodeCmd
  split
  case h_16 =>
    have h15 : (opField W).toNat = (0xF : BitVec 4).toNat := by
      have hlt := (opField W).isLt
      have : (0xF : BitVec 4).toNat = 15 := rfl
      simp only [imp_false] at *
      omega
    exact ⟨_, _, by rw [← hop _ h15]; rfl⟩
  all_goals
    rename_i h
    exact ⟨_, _, congrArg (fun op => Transaction.cmd (cmdWord op _ _)) (hop _ h)⟩

/-! ## Bits a command does not read -/

theorem devOperand_congr {W W' : BitVec 40} (hdp : dpField W = dpField W')
    (hdev : dpField W = true → devField W = devField W') : devOperand W = devOperand W' := by
  rw [devOperand, devOperand, ← hdp]
  cases h : dpField W with
  | true => simp [hdev h]
  | false => rfl

/-- Words that agree on the operands their `OP` reads decode alike. -/
theorem decodeCmd_congr {W W' : BitVec 40} (hop : opField W = opField W') (hdev : devOperand W = devOperand W')
    (hsel : opField W = 0x0 ∨ opField W = 0x4 → selField W = selField W')
    (harg : opField W = 0x3 ∨ opField W = 0x6 → argField W = argField W') : decodeCmd W = decodeCmd W' := by
  have hk : ∀ k : BitVec 4, (opField W).toNat = k.toNat → opField W = k := fun k => BitVec.eq_of_toNat_eq
  unfold decodeCmd
  rw [← hop, ← hdev]
  split <;> rename_i h
  case h_1 => rw [modeOperand, modeOperand, hsel (.inl (hk _ h))]
  case h_4 => rw [harg (.inl (hk _ h))]
  case h_5 => rw [powerOperand, powerOperand, hsel (.inr (hk _ h))]
  case h_7 => rw [harg (.inr (hk _ h))]
  all_goals rfl

/-! ## The obligations -/

/-- Settles O1, case by case along the instructions: the decoder reads back every operand. -/
theorem decodeEncodeRoundTrip : Obligations.DecodeEncodeRoundTrip := by
  unfold Obligations.DecodeEncodeRoundTrip
  intro i h
  exact decode_encode h

/-- Settles O2, by port. -/
theorem everyTransactionDecodesWellFormed : Obligations.EveryTransactionDecodesWellFormed := by
  unfold Obligations.EveryTransactionDecodesWellFormed
  exact wf_decode

/-- Settles O3: what a command word decodes to is well formed, so its encoding decodes to it again. -/
theorem encodeDecodeGivesTransactionBack : Obligations.EncodeDecodeGivesTransactionBack := by
  unfold Obligations.EncodeDecodeGivesTransactionBack
  refine ⟨encode_decodeDelivery, by decide, fun W => ?_⟩
  obtain ⟨arg, dev?, h⟩ := encode_decodeCmd W
  refine ⟨_, h, ?_, opField_cmdWord .., rsvField_cmdWord ..⟩
  rw [← h]
  exact decode_encode (wf_decodeCmd W)

/-- Settles O4: the decoder reads a word through the fields its `OP` has. -/
theorem ignoredCommandBitsHaveNoEffect : Obligations.IgnoredCommandBitsHaveNoEffect := by
  unfold Obligations.IgnoredCommandBitsHaveNoEffect
  intro W W' hop hdp hdev hsel harg
  refine decodeCmd_congr hop (devOperand_congr hdp hdev) (fun h => ?_) harg
  rw [selField_eq, selField_eq, hsel h]

/-- Settles O5: each word is decoded by evaluation. -/
theorem specWordsDecode : Obligations.SpecWordsDecode := by
  unfold Obligations.SpecWordsDecode
  decide

end Sys2Proof.Proofs
end

section
/-! PROOFS. What every instruction and every delivery can do, each said once: the facts that the statements about the
framer, the outputs and the whole machine are derived from. -/

namespace Sys2Proof.Proofs

open Sys2Proof Sys2Proof.Machine

/-! ## Instructions -/

/-- A minute count is sent or rejected (R109). -/
theorem execSetWorkingPeriod_cases (minutes : Half) (dev? : Option DevId) (s : State) :
    execSetWorkingPeriod minutes dev? s = emitCommand subWorkingPeriod flagSet (lo8 minutes) 0 0 dev? s ∨
      execSetWorkingPeriod minutes dev? s = rejectCommand .badArg s := by
  unfold execSetWorkingPeriod
  split
  · exact .inl rfl
  · exact .inr rfl

/-- Everything an instruction can be: an accepted command, one turned away, the delivery of the chunk it encodes to, or
a control. -/
theorem exec_cases (i : Instr) (s : State) :
    (∃ p0 p1 p2 p6 p7 dev?, exec i s = emitCommand p0 p1 p2 p6 p7 dev? s) ∨
    (∃ code, exec i s = rejectCommand code s) ∨
    (∃ chunk now, encode i = .deliver chunk now ∧ exec i s = deliverChunk chunk now s) ∨
    exec i s = execClearBuffer s ∨ exec i s = execReset s := by
  cases i with
  | setWorkingPeriod minutes dev? =>
    obtain h | h := execSetWorkingPeriod_cases minutes dev? s
    · exact .inl ⟨_, _, _, _, _, _, h⟩
    · exact .inr (.inl ⟨_, h⟩)
  | reservedOpC | reservedOpD | reservedOpE | reservedOpF => exact .inr (.inl ⟨_, rfl⟩)
  | deliver | rxMeasurement | rxAckReportingMode | rxAckDeviceId | rxAckSleepWork | rxAckFirmwareVersion
  | rxAckWorkingPeriod | rxAckUnrecognised | rxUnknownClass => exact .inr (.inr (.inl ⟨_, _, rfl, rfl⟩))
  | clearBuffer => exact .inr (.inr (.inr (.inl rfl)))
  | reset => exact .inr (.inr (.inr (.inr rfl)))
  | _ => exact .inl ⟨_, _, _, _, _, _, rfl⟩

/-- No instruction writes the parameters (R28). -/
theorem exec_next_params {i : Instr} {s t : State} (h : exec i s = .next t) : t.params = s.params := by
  obtain ⟨p0, p1, p2, p6, p7, dev?, he⟩ | ⟨code, he⟩ | ⟨chunk, now, -, he⟩ | he | he := exec_cases i s <;>
    rw [he] at h
  case inr.inr.inl =>
    obtain ⟨-, rfl⟩ := deliverChunk_inv h
    exact (frameBuffer_frame ..).1
  all_goals
    cases h
    rfl

/-- The instructions that stand for a delivery run it (log 4). -/
theorem exec_of_encode_deliver {i : Instr} {chunk : List Byte} {now : Timestamp} (h : encode i = .deliver chunk now)
    (s : State) : exec i s = exec (.deliver chunk now) s := by
  cases i with
  | deliver | rxMeasurement | rxAckReportingMode | rxAckDeviceId | rxAckSleepWork | rxAckFirmwareVersion
  | rxAckWorkingPeriod | rxAckUnrecognised | rxUnknownClass =>
    cases h
    rfl
  | _ => cases h

/-- A delivery on the port does what the `deliver` instruction of its chunk does, whatever its name (log 4). -/
theorem exec_decode_delivery (chunk : List Byte) (now : Timestamp) (s : State) :
    exec (decode (.deliver chunk now)) s = exec (.deliver chunk now) s :=
  exec_decode_deliver chunk now s

/-! ## Capacity (R141, R214) -/

theorem overflows_of_not_fits {s : State} {chunk : List Byte} (h : ¬ fits s chunk) : overflows s chunk = true := by
  rwa [← overflows_eq_false_iff, Bool.not_eq_false] at h

theorem exec_deliver_of_not_fits {s : State} {chunk : List Byte} (h : ¬ fits s chunk) (now : Timestamp) :
    exec (.deliver chunk now) s = .fault (.bufOverflow s.buf.length chunk.length) :=
  deliverChunk_fault (overflows_of_not_fits h)

theorem exec_deliver_of_fits {s : State} {chunk : List Byte} (h : fits s chunk) (now : Timestamp) :
    ∃ t, exec (.deliver chunk now) s = .next t :=
  ⟨_, deliverChunk_next (overflows_eq_false_iff.mpr h)⟩

/-- A delivery that faulted did not fit. -/
theorem exec_deliver_fault_inv {chunk : List Byte} {now : Timestamp} {s : State} {e : Fault}
    (h : exec (.deliver chunk now) s = .fault e) : ¬ fits s chunk ∧ e = .bufOverflow s.buf.length chunk.length := by
  have hn : ¬ fits s chunk := by
    intro hf
    obtain ⟨t, ht⟩ := exec_deliver_of_fits hf now
    cases ht.symm.trans h
  cases (exec_deliver_of_not_fits hn now).symm.trans h
  exact ⟨hn, rfl⟩

/-- A chunk that does not fit exceeds a finite capacity. -/
theorem exists_cap_of_not_fits {s : State} {chunk : List Byte} (h : ¬ fits s chunk) :
    ∃ c, s.params.bufCap = some c ∧ c < s.buf.length + chunk.length := by
  simpa [fits] using h

/-! ## Aligned buffers (R26, R29) -/

@[simp] theorem aligned_nil : aligned [] := fun _ h => nomatch h

/-- A nonempty aligned buffer is led by the marker. -/
theorem head?_of_aligned {b : List Byte} (h : aligned b) (hne : b ≠ []) : b.head? = some 0xAA := by
  obtain ⟨x, b, rfl⟩ := List.exists_cons_of_ne_nil hne
  exact congrArg some (h x rfl)

theorem fstate_eq_accumulating_iff {b : List Byte} : fstate b = .accumulating ↔ b.head? = some 0xAA := by
  cases b with
  | nil => simp [fstate]
  | cons x b => simp [fstate]

theorem fstate_eq_awaitingSync_iff {b : List Byte} : fstate b = .awaitingSync ↔ b.head? ≠ some 0xAA := by
  rw [ne_eq, ← fstate_eq_accumulating_iff]
  cases fstate b <;> decide

@[simp] theorem fstate_nil : fstate [] = .awaitingSync := rfl

@[simp] theorem restAligned_nil : restAligned [] := ⟨aligned_nil, Nat.zero_le _⟩

/-- Ten bytes led by the marker, and what follows them, out of a long aligned buffer. -/
theorem exists_aligned_frame {b : List Byte} (ha : aligned b) (hl : 10 ≤ b.length) :
    ∃ f rest, b = f ++ rest ∧ f.length = 10 ∧ aligned f := by
  refine ⟨b.take 10, b.drop 10, (List.take_append_drop 10 b).symm, List.length_take_of_le hl, ?_⟩
  intro x hx
  rw [List.head?_take, if_neg (by decide)] at hx
  exact ha x hx

/-! ## The interpreter -/

/-- A recognised acknowledgment (R174 to R176). -/
theorem interpreted_of_ack {f : List Byte} (hc : byteAt f 1 = 0xC5) (hs : byteAt f 2 ∈ [(2 : Byte), 5, 6, 7, 8])
    (now : Timestamp) (d : Nat) (s : State) :
    interpreted f now d s = { s with
      devid := u16le (byteAt f 6) (byteAt f 7), buf := [], tx := none
      ev := some (.ack (byteAt f 2) (byteAt f 3) (byteAt f 4) (byteAt f 5) (u16le (byteAt f 6) (byteAt f 7)) now)
      st := some ⟨.ok, d, some .ack⟩ } := by
  have hm : byteAt f 1 ≠ 0xC0 := by
    rw [hc]
    decide
  exact (if_neg hm).trans ((if_pos hc).trans (if_pos hs))

/-- Any other acknowledgment (R178). -/
theorem interpreted_of_unrecognisedAck {f : List Byte} (hc : byteAt f 1 = 0xC5)
    (hs : byteAt f 2 ∉ [(2 : Byte), 5, 6, 7, 8]) (now : Timestamp) (d : Nat) (s : State) :
    interpreted f now d s = { s with
      devid := u16le (byteAt f 6) (byteAt f 7), buf := [], tx := none, ev := none
      st := some ⟨.ok, d, some .ackDropped⟩ } := by
  have hm : byteAt f 1 ≠ 0xC0 := by
    rw [hc]
    decide
  exact (if_neg hm).trans ((if_pos hc).trans (if_neg hs))

/-- A frame of another class (R179). -/
theorem interpreted_of_unknownClass {f : List Byte} (hm : byteAt f 1 ≠ 0xC0) (ha : byteAt f 1 ≠ 0xC5)
    (now : Timestamp) (d : Nat) (s : State) :
    interpreted f now d s = { s with
      buf := [], tx := none, ev := some (.unknownClass (byteAt f 1) s.devid now)
      st := some ⟨.ok, d, some .unknownClass⟩ } :=
  (if_neg hm).trans (if_neg ha)

/-- What the interpreter leaves, said once: the frame and the session id settle the result, the id and the event; the
timestamp is copied into the event, and only a dropped acknowledgment makes none (R170 to R179). -/
theorem interpreted_shape (f : List Byte) :
    ∃ (r : RxResult) (id : DevId → DevId) (ev : DevId → Timestamp → Option Event),
      (∀ now d s, interpreted f now d s = { s with
        devid := id s.devid, buf := [], tx := none, ev := ev s.devid now, st := some ⟨.ok, d, some r⟩ }) ∧
      (∀ v now now', ev v now' = (ev v now).map (Event.at now')) ∧
      (∀ v now, (ev v now).isSome = true ↔ r = .meas ∨ r = .ack ∨ r = .unknownClass) := by
  by_cases hm : byteAt f 1 = 0xC0
  · exact ⟨.meas, fun _ => u16le (byteAt f 6) (byteAt f 7),
      fun _ now => some (.meas (u16le (byteAt f 2) (byteAt f 3)) (u16le (byteAt f 4) (byteAt f 5)) now),
      interpreted_of_measurement hm, fun _ _ _ => rfl, by simp⟩
  by_cases ha : byteAt f 1 = 0xC5
  · by_cases hs : byteAt f 2 ∈ [(2 : Byte), 5, 6, 7, 8]
    · exact ⟨.ack, fun _ => u16le (byteAt f 6) (byteAt f 7),
        fun _ now =>
          some (.ack (byteAt f 2) (byteAt f 3) (byteAt f 4) (byteAt f 5) (u16le (byteAt f 6) (byteAt f 7)) now),
        interpreted_of_ack ha hs, fun _ _ _ => rfl, by simp⟩
    · exact ⟨.ackDropped, fun _ => u16le (byteAt f 6) (byteAt f 7), fun _ _ => none,
        interpreted_of_unrecognisedAck ha hs, fun _ _ _ => rfl, by simp⟩
  · exact ⟨.unknownClass, id, fun v now => some (.unknownClass (byteAt f 1) v now),
      interpreted_of_unknownClass hm ha, fun _ _ _ => rfl, by simp⟩

@[simp] theorem interpreted_buf (f : List Byte) (now : Timestamp) (d : Nat) (s : State) :
    (interpreted f now d s).buf = [] := by
  obtain ⟨r, id, ev, h, -, -⟩ := interpreted_shape f
  rw [h]

@[simp] theorem interpreted_tx (f : List Byte) (now : Timestamp) (d : Nat) (s : State) :
    (interpreted f now d s).tx = none := by
  obtain ⟨r, id, ev, h, -, -⟩ := interpreted_shape f
  rw [h]

/-- The status record carries the count, and an event comes with every result but a dropped acknowledgment. -/
theorem interpreted_outputs (f : List Byte) (now : Timestamp) (d : Nat) (s : State) :
    ∃ r, (interpreted f now d s).st = some ⟨.ok, d, some r⟩ ∧
      ((interpreted f now d s).ev.isSome = true ↔ r = .meas ∨ r = .ack ∨ r = .unknownClass) := by
  obtain ⟨r, id, ev, h, -, hev⟩ := interpreted_shape f
  rw [h]
  exact ⟨r, rfl, hev ..⟩

/-- The status record does not depend on the state. -/
theorem interpreted_st_congr (f : List Byte) (now : Timestamp) (d : Nat) (s s' : State) :
    (interpreted f now d s).st = (interpreted f now d s').st := by
  obtain ⟨r, id, ev, h, -, -⟩ := interpreted_shape f
  rw [h, h]

/-- With another timestamp the interpreter does the same but for the event's copy (R181). -/
theorem interpreted_timestamp (f : List Byte) (now now' : Timestamp) (d : Nat) (s : State) :
    (interpreted f now d s).ev = (interpreted f now d s).ev.map (Event.at now) ∧
      interpreted f now' d s =
        { interpreted f now d s with ev := (interpreted f now d s).ev.map (Event.at now') } := by
  obtain ⟨r, id, ev, h, hat, -⟩ := interpreted_shape f
  rw [h, h]
  exact ⟨hat .., by rw [← hat]⟩

/-! ## Deliveries -/

/-- The codes a failed validation reports (R145). -/
def isFailure (c : StatusCode) : Prop := c = .badChecksum ∨ c = .badTail

/-- A delivery that waits for more bytes: it keeps `b` (R143). -/
def waited (b : List Byte) (d : Nat) (s : State) : State :=
  { s with buf := b, tx := none, ev := none, st := some ⟨.short, d, none⟩ }

/-- A delivery that failed validation: it keeps what follows the ten bytes (R145). -/
def discarded (code : StatusCode) (rest : List Byte) (d : Nat) (s : State) : State :=
  { s with buf := rest, tx := none, ev := none, st := some ⟨code, d, none⟩ }

/-- What a delivery that appended `chunk` leaves: the bytes before the first marker are dropped, and the rest waits,
fails validation, or is interpreted (R142 to R146). -/
inductive Delivered (chunk : List Byte) (now : Timestamp) (s : State) : State → Prop
  | short (pre b : List Byte) (he : s.buf ++ chunk = pre ++ b) (hp : headMarker ∉ pre) (ha : aligned b)
      (hl : b.length < 10) : Delivered chunk now s (waited b pre.length s)
  | invalid (pre f rest : List Byte) (code : StatusCode) (he : s.buf ++ chunk = pre ++ f ++ rest)
      (hp : headMarker ∉ pre) (ha : aligned f) (hl : f.length = 10) (hv : ¬ rxValid f) (hc : isFailure code) :
      Delivered chunk now s (discarded code rest pre.length s)
  | valid (pre f rest : List Byte) (he : s.buf ++ chunk = pre ++ f ++ rest) (hp : headMarker ∉ pre) (ha : aligned f)
      (hl : f.length = 10) (hv : rxValid f) : Delivered chunk now s (interpreted f now pre.length s)

/-- A frame that fails either test is turned away. -/
theorem frameBuffer_invalid {f : List Byte} (hl : f.length = 10) (hv : ¬ rxValid f) :
    ∃ code, isFailure code ∧ ∀ rest now d s, frameBuffer (f ++ rest) now d s = discarded code rest d s := by
  by_cases hck : checksum (slice f 2 7) = byteAt f 8
  · have ht : byteAt f 9 ≠ tailMarker := fun ht => hv ⟨hck, ht⟩
    exact ⟨_, .inr rfl, fun rest now d s => frameBuffer_badTail hl hck ht rest now d s⟩
  · exact ⟨_, .inl rfl, fun rest now d s => frameBuffer_badChecksum hl hck rest now d s⟩

/-- What steps 3 to 5 do to a buffer is settled by its bytes, whatever the timestamp, the count and the state. -/
theorem frameBuffer_shape (b : List Byte) :
    (∀ now d s, frameBuffer b now d s = waited b d s) ∨
    (∃ f, ∀ now d s, frameBuffer b now d s = interpreted f now d s) ∨
    ∃ code rest, ∀ now d s, frameBuffer b now d s = discarded code rest d s := by
  obtain hl | hl := Nat.lt_or_ge b.length 10
  · exact .inl (frameBuffer_short hl)
  · have hlen : (b.take 10).length = 10 := List.length_take_of_le hl
    rw [← List.take_append_drop 10 b]
    by_cases hv : rxValid (b.take 10)
    · exact .inr (.inl ⟨_, frameBuffer_valid hlen hv _⟩)
    · obtain ⟨code, -, h⟩ := frameBuffer_invalid hlen hv
      exact .inr (.inr ⟨code, _, h _⟩)

theorem exec_deliver_waits {chunk pre b : List Byte} {s : State} (hf : fits s chunk) (he : s.buf ++ chunk = pre ++ b)
    (hp : headMarker ∉ pre) (ha : aligned b) (hl : b.length < 10) (now : Timestamp) :
    exec (.deliver chunk now) s = .next (waited b pre.length s) := by
  rw [exec_deliver_parts hf he hp ha, frameBuffer_short hl, waited]

theorem exec_deliver_invalid {chunk pre f rest : List Byte} {s : State} (hf : fits s chunk)
    (he : s.buf ++ chunk = pre ++ f ++ rest) (hp : headMarker ∉ pre) (ha : aligned f) (hl : f.length = 10)
    (hv : ¬ rxValid f) (now : Timestamp) :
    ∃ code, isFailure code ∧ exec (.deliver chunk now) s = .next (discarded code rest pre.length s) := by
  obtain ⟨code, hc, h⟩ := frameBuffer_invalid hl hv
  exact ⟨code, hc, by rw [exec_deliver_frame hf he hp ha hl, h]⟩

/-- The three outcomes are all a completed delivery can have. -/
theorem exec_deliver_delivered {chunk : List Byte} {now : Timestamp} {s t : State}
    (h : exec (.deliver chunk now) s = .next t) : fits s chunk ∧ Delivered chunk now s t := by
  obtain ⟨hf, pre, b, he, hp, ha, -⟩ := exec_deliver_inv h
  refine ⟨hf, ?_⟩
  obtain hl | hl := Nat.lt_or_ge b.length 10
  · cases (exec_deliver_waits hf he hp ha hl now).symm.trans h
    exact .short pre b he hp ha hl
  · obtain ⟨f, rest, rfl, hfl, hfa⟩ := exists_aligned_frame ha hl
    rw [← List.append_assoc] at he
    by_cases hv : rxValid f
    · cases (exec_deliver_valid hf he hp hfa hfl hv).symm.trans h
      exact .valid pre f rest he hp hfa hfl hv
    · obtain ⟨code, hc, hx⟩ := exec_deliver_invalid hf he hp hfa hfl hv now
      cases hx.symm.trans h
      exact .invalid pre f rest code he hp hfa hfl hv hc

/-! ## What is read off the three outcomes -/

@[simp] theorem waited_reports (b : List Byte) (d : Nat) (s : State) (c : StatusCode) :
    (waited b d s).reports c ↔ c = .short := by
  simp [State.reports, waited, eq_comm]

@[simp] theorem discarded_reports (code : StatusCode) (rest : List Byte) (d : Nat) (s : State) (c : StatusCode) :
    (discarded code rest d s).reports c ↔ c = code := by
  simp [State.reports, discarded, eq_comm]

theorem discarded_reports_failure {code : StatusCode} (hc : isFailure code) (rest : List Byte) (d : Nat) (s : State) :
    (discarded code rest d s).reports .badChecksum ∨ (discarded code rest d s).reports .badTail := by
  rcases hc with rfl | rfl <;> simp

@[simp] theorem interpreted_reports (f : List Byte) (now : Timestamp) (d : Nat) (s : State) (c : StatusCode) :
    (interpreted f now d s).reports c ↔ c = .ok := by
  obtain ⟨x, hx, hc⟩ := interpreted_reports_ok f now d s
  rw [reports_iff_of_st hx, hc, eq_comm]

@[simp] theorem waited_buf (b : List Byte) (d : Nat) (s : State) : (waited b d s).buf = b := rfl

@[simp] theorem discarded_buf (code : StatusCode) (rest : List Byte) (d : Nat) (s : State) :
    (discarded code rest d s).buf = rest := rfl

theorem isFailure.ne_ok {c : StatusCode} (h : isFailure c) : c ≠ .ok := by
  rcases h with rfl | rfl <;> decide

theorem isFailure.ne_short {c : StatusCode} (h : isFailure c) : c ≠ .short := by
  rcases h with rfl | rfl <;> decide

/-! ## The obligations -/

/-- Settles O9: every operation keeps the parameters and only carries the host's sequence. -/
theorem parametersAndHostSequenceUnchanged : Obligations.ParametersAndHostSequenceUnchanged := by
  unfold Obligations.ParametersAndHostSequenceUnchanged
  exact fun i s t h => ⟨exec_next_params h, exec_next_pending h⟩

/-- Settles O38, along the instructions: an encoding is a delivery for the nine delivery forms alone. -/
theorem frameRowsAreDeliveries : Obligations.FrameRowsAreDeliveries := by
  unfold Obligations.FrameRowsAreDeliveries
  exact fun i chunk now s h => exec_of_encode_deliver h s

end Sys2Proof.Proofs
end

section
/-! PROOFS. The Stream Framer: its one fault (R214), what a delivery without `OK` leaves (R145, R154, R212, R248), its
two states (R151), its progress (R152), and the timestamp (R181). -/

namespace Sys2Proof.Proofs

open Sys2Proof Sys2Proof.Machine

/-! ## The three outcomes of a delivery, seen from its state -/

section Delivered

variable {chunk : List Byte} {now : Timestamp} {s t : State}

/-- No delivery emits a frame to the sensor. -/
theorem Delivered.tx (h : Delivered chunk now s t) : t.tx = none := by
  cases h with
  | short | invalid => rfl
  | valid => simp

/-- Without `OK` nothing was interpreted. -/
theorem Delivered.of_not_ok (h : Delivered chunk now s t) (hn : ¬ t.reports .ok) :
    t.ev = none ∧ t.devid = s.devid ∧ (t.reports .short ∨ t.reports .badChecksum ∨ t.reports .badTail) := by
  cases h with
  | short => exact ⟨rfl, rfl, .inl (by simp)⟩
  | invalid pre f rest code he hp ha hl hv hc => exact ⟨rfl, rfl, .inr (discarded_reports_failure hc ..)⟩
  | valid => exact absurd (by simp) hn

/-- A delivery that did not fail leaves a buffer at rest. -/
theorem Delivered.rests (h : Delivered chunk now s t) (hc : ¬ t.reports .badChecksum) (ht : ¬ t.reports .badTail) :
    restAligned t.buf := by
  cases h with
  | short pre b he hp ha hl => exact ⟨ha, Nat.le_of_lt_succ hl⟩
  | invalid pre f rest code he hp ha hl hv hcode =>
    rcases hcode with rfl | rfl
    · exact absurd (by simp) hc
    · exact absurd (by simp) ht
  | valid => simp

/-- A delivery that failed removed the counted bytes and ten more (R248). -/
theorem Delivered.length_of_failure {x : Status} (h : Delivered chunk now s t) (hst : t.st = some x)
    (hx : isFailure x.code) : t.buf.length + 10 + x.d = s.buf.length + chunk.length := by
  have hr : t.reports x.code := ⟨x, hst, rfl⟩
  cases h with
  | short => exact absurd ((waited_reports ..).mp hr) hx.ne_short
  | invalid pre f rest code he hp ha hl =>
    cases hst
    have := congrArg List.length he
    simp only [List.length_append, hl] at this
    simp only [discarded_buf]
    omega
  | valid => exact absurd ((interpreted_reports ..).mp hr) hx.ne_ok

/-- A delivery ends at rest or removes ten bytes (R152). -/
theorem Delivered.progress (h : Delivered chunk now s t) :
    restAligned t.buf ∨ t.buf.length + 10 ≤ s.buf.length + chunk.length := by
  cases h with
  | short pre b he hp ha hl => exact .inl ⟨ha, Nat.le_of_lt_succ hl⟩
  | invalid pre f rest code he hp ha hl =>
    refine .inr ?_
    have := congrArg List.length he
    simp only [List.length_append, hl] at this
    simp only [discarded_buf]
    omega
  | valid => simp

/-- No byte is made up. -/
theorem Delivered.length_le (h : Delivered chunk now s t) : t.buf.length ≤ s.buf.length + chunk.length := by
  rw [← List.length_append]
  cases h with
  | short pre b he =>
    rw [he, List.length_append]
    exact Nat.le_add_left ..
  | invalid pre f rest code he =>
    rw [he, List.length_append]
    exact Nat.le_add_left ..
  | valid => simp

end Delivered

/-! ## The timestamp (R181) -/

/-- With another timestamp steps 3 to 5 do the same but for the event's copy. -/
theorem frameBuffer_timestamp (b : List Byte) (now now' : Timestamp) (d : Nat) (s : State) :
    (frameBuffer b now d s).ev = (frameBuffer b now d s).ev.map (Event.at now) ∧
      frameBuffer b now' d s =
        { frameBuffer b now d s with ev := (frameBuffer b now d s).ev.map (Event.at now') } := by
  obtain h | ⟨f, h⟩ | ⟨code, rest, h⟩ := frameBuffer_shape b <;> rw [h, h]
  · exact ⟨rfl, rfl⟩
  · exact interpreted_timestamp f now now' d s
  · exact ⟨rfl, rfl⟩

/-! ## Runs of deliveries -/

/-- A run starts with its first delivery. -/
theorem deliverAll_cons_eq_some_iff {chunk : List Byte} {now : Timestamp} {rest : List (List Byte × Timestamp)}
    {s u : State} {frames : List (List Byte)} :
    deliverAll ((chunk, now) :: rest) s = some (u, frames) ↔
      ∃ t more, exec (.deliver chunk now) s = .next t ∧ deliverAll rest t = some (u, more) ∧
        frames = (emittedFrame s chunk t).toList ++ more := by
  rw [deliverAll]
  constructor
  · intro h
    split at h
    · rename_i t ht
      obtain ⟨⟨u', more⟩, hm, he⟩ := Option.map_eq_some_iff.mp h
      cases he
      exact ⟨t, more, ht, hm, rfl⟩
    · cases h
    · cases h
  · rintro ⟨t, more, ht, hm, rfl⟩
    simp only [ht, hm, Option.map_some]

/-- A run of one delivery. -/
theorem deliverAll_singleton {chunk : List Byte} {now : Timestamp} {s t : State}
    (h : exec (.deliver chunk now) s = .next t) :
    deliverAll [(chunk, now)] s = some (t, (emittedFrame s chunk t).toList) :=
  deliverAll_cons_eq_some_iff.mpr ⟨t, [], h, rfl, (List.append_nil _).symm⟩

theorem emittedFrame_discarded (s : State) (chunk : List Byte) (code : StatusCode) (rest : List Byte) (d : Nat)
    (s' : State) : emittedFrame s chunk (discarded code rest d s') = none := by
  cases code <;> rfl

theorem emittedFrame_of_st {s t : State} {d : Nat} {r : RxResult} (h : t.st = some ⟨.ok, d, some r⟩)
    (chunk : List Byte) : emittedFrame s chunk t = some (((s.buf ++ chunk).drop d).take 10) := by
  rw [emittedFrame, h]

/-- The frame emitted is the one interpreted. -/
theorem emittedFrame_interpreted {s : State} {chunk pre f rest : List Byte} (he : s.buf ++ chunk = pre ++ f ++ rest)
    (hl : f.length = 10) (now : Timestamp) (s' : State) :
    emittedFrame s chunk (interpreted f now pre.length s') = some f := by
  obtain ⟨r, hr, -⟩ := interpreted_outputs f now pre.length s'
  rw [emittedFrame_of_st hr, he, List.append_assoc, List.drop_left]
  exact congrArg some (List.take_left' hl)

theorem fits_of_length_le {s t : State} {chunk chunk' : List Byte} (h : fits s chunk) (hp : t.params = s.params)
    (hl : t.buf.length + chunk'.length ≤ s.buf.length + chunk.length) : fits t chunk' := by
  intro c hc
  exact hl.trans (h c (hp ▸ hc))

/-- Zero-length deliveries, ten bytes each at worst, bring the buffer to rest. -/
theorem deliverAll_drain (ts : List Timestamp) (s : State) (hf : fits s [])
    (hb : restAligned s.buf ∨ s.buf.length ≤ 10 * ts.length) :
    ∃ t frames, deliverAll (drain ts) s = some (t, frames) ∧ restAligned t.buf := by
  induction ts generalizing s with
  | nil =>
    refine ⟨s, [], rfl, hb.elim id fun h => ?_⟩
    obtain h0 : s.buf = [] := List.eq_nil_of_length_eq_zero (Nat.le_zero.mp h)
    simp [h0]
  | cons now ts ih =>
    obtain ⟨t, ht⟩ := exec_deliver_of_fits hf now
    obtain ⟨-, hd⟩ := exec_deliver_delivered ht
    have hft : fits t [] := fits_of_length_le hf (exec_next_params ht) (by simpa using hd.length_le)
    have hbt : restAligned t.buf ∨ t.buf.length ≤ 10 * ts.length := by
      refine hd.progress.imp_right fun hp => ?_
      simp only [List.length_nil, List.length_cons, restAligned] at hp hb
      omega
    obtain ⟨u, more, hu, hr⟩ := ih t hft hbt
    exact ⟨u, _, deliverAll_cons_eq_some_iff.mpr ⟨t, more, ht, hu, rfl⟩, hr⟩

/-! ## The framer's states (R151) -/

section FramerStates

variable {chunk : List Byte} {now : Timestamp} {s t : State}

/-- Row 1: no head marker anywhere. -/
theorem deliver_short_of_no_head (h : exec (.deliver chunk now) s = .next t) (hn : headMarker ∉ s.buf ++ chunk) :
    t.reports .short ∧ t.buf = [] := by
  obtain ⟨hf, -⟩ := exec_deliver_inv h
  cases (exec_deliver_waits hf (List.append_nil _).symm hn aligned_nil (by simp) now).symm.trans h
  simp

/-- Row 2: `SHORT` with a head marker in sight. -/
theorem deliver_accumulates_of_short (h : exec (.deliver chunk now) s = .next t) (hr : t.reports .short)
    (hm : headMarker ∈ s.buf ++ chunk) : 1 ≤ t.buf.length ∧ t.buf.length ≤ 9 ∧ fstate t.buf = .accumulating := by
  obtain ⟨-, hd⟩ := exec_deliver_delivered h
  cases hd with
  | short pre b he hp ha hl =>
    have hne : b ≠ [] := by
      rintro rfl
      rw [he, List.append_nil] at hm
      exact hp hm
    exact ⟨List.length_pos_iff.mpr hne, Nat.le_of_lt_succ hl,
      fstate_eq_accumulating_iff.mpr (head?_of_aligned ha hne)⟩
  | invalid pre f rest code he hp ha hl hv hc => exact absurd ((discarded_reports ..).mp hr).symm hc.ne_short
  | valid => cases (interpreted_reports ..).mp hr

/-- Row 3: `OK`. -/
theorem deliver_empties_of_ok (h : exec (.deliver chunk now) s = .next t) (hr : t.reports .ok) : t.buf = [] := by
  obtain ⟨-, hd⟩ := exec_deliver_delivered h
  cases hd with
  | short => cases (waited_reports ..).mp hr
  | invalid pre f rest code he hp ha hl hv hc => exact absurd ((discarded_reports ..).mp hr).symm hc.ne_ok
  | valid => simp

/-- Rows 4 and 5, back from the status. -/
theorem deliver_drops_invalid_of_failure (h : exec (.deliver chunk now) s = .next t)
    (hr : t.reports .badChecksum ∨ t.reports .badTail) :
    ∃ pre f rest, s.buf ++ chunk = pre ++ f ++ rest ∧ headMarker ∉ pre ∧ aligned f ∧ f.length = 10 ∧
      ¬ rxValid f ∧ t.buf = rest := by
  obtain ⟨-, hd⟩ := exec_deliver_delivered h
  cases hd with
  | short => simp at hr
  | invalid pre f rest code he hp ha hl hv => exact ⟨pre, f, rest, he, hp, ha, hl, hv, rfl⟩
  | valid => simp at hr

/-- Row 2, from the bytes. -/
theorem deliver_short_of_partial {pre b : List Byte} (h : exec (.deliver chunk now) s = .next t)
    (he : s.buf ++ chunk = pre ++ b) (hp : headMarker ∉ pre) (ha : aligned b) (hne : b ≠ []) (hl : b.length < 10) :
    t.reports .short ∧ t.buf = b ∧ fstate t.buf = .accumulating := by
  obtain ⟨hf, -⟩ := exec_deliver_inv h
  cases (exec_deliver_waits hf he hp ha hl now).symm.trans h
  exact ⟨by simp, rfl, fstate_eq_accumulating_iff.mpr (head?_of_aligned ha hne)⟩

/-- Row 3, from the bytes. -/
theorem deliver_ok_of_valid {pre f rest : List Byte} (h : exec (.deliver chunk now) s = .next t)
    (he : s.buf ++ chunk = pre ++ f ++ rest) (hp : headMarker ∉ pre) (ha : aligned f) (hl : f.length = 10)
    (hv : rxValid f) : t.reports .ok ∧ t.buf = [] := by
  obtain ⟨hf, -⟩ := exec_deliver_inv h
  cases (exec_deliver_valid hf he hp ha hl hv).symm.trans h
  simp

/-- Rows 4 and 5, from the bytes. -/
theorem deliver_fails_of_invalid {pre f rest : List Byte} (h : exec (.deliver chunk now) s = .next t)
    (he : s.buf ++ chunk = pre ++ f ++ rest) (hp : headMarker ∉ pre) (ha : aligned f) (hl : f.length = 10)
    (hv : ¬ rxValid f) : (t.reports .badChecksum ∨ t.reports .badTail) ∧ t.buf = rest := by
  obtain ⟨hf, -⟩ := exec_deliver_inv h
  obtain ⟨code, hc, hx⟩ := exec_deliver_invalid hf he hp ha hl hv now
  cases hx.symm.trans h
  exact ⟨discarded_reports_failure hc .., rfl⟩

end FramerStates

/-! ## The obligations -/

/-- Settles O29: a delivery faults where its chunk does not fit, and nothing else faults. -/
theorem overflowIsTheOnlyFault : Obligations.OverflowIsTheOnlyFault := by
  unfold Obligations.OverflowIsTheOnlyFault
  refine ⟨fun chunk now s h => exec_deliver_of_not_fits h now, fun i s e h => ?_⟩
  obtain ⟨_, _, _, _, _, _, he⟩ | ⟨_, he⟩ | ⟨chunk, now, hc, he⟩ | he | he := exec_cases i s
  case inr.inr.inl =>
    obtain ⟨hn, rfl⟩ := exec_deliver_fault_inv (he.symm.trans h)
    exact ⟨chunk, now, hc, hn, rfl⟩
  all_goals cases he.symm.trans h

/-- Settles O30, by the outcomes other than `OK`. -/
theorem framingErrorsEmitNothing : Obligations.FramingErrorsEmitNothing := by
  unfold Obligations.FramingErrorsEmitNothing
  intro chunk now s t h hn
  obtain ⟨-, hd⟩ := exec_deliver_delivered h
  obtain ⟨hev, hid, hr⟩ := hd.of_not_ok hn
  exact ⟨hev, hd.tx, hid, hr⟩

/-- Settles O31: the empty chunk leaves the buffer as the one to split. -/
theorem zeroLengthDelivery : Obligations.ZeroLengthDelivery := by
  unfold Obligations.ZeroLengthDelivery
  intro now s hf
  refine ⟨fun ⟨ha, hl⟩ => ?_, fun pre f rest he hp ha hl hv => ?_⟩
  · exact exec_deliver_waits hf (List.append_nil _) List.not_mem_nil ha (Nat.lt_succ_of_le hl) now
  · exact exec_deliver_valid hf (by rw [List.append_nil, he]) hp ha hl hv

/-- Settles O32, row by row of R151's table. -/
theorem framerStateMachine : Obligations.FramerStateMachine := by
  unfold Obligations.FramerStateMachine
  refine ⟨fun chunk now s t h => ⟨fun hn => ?_, deliver_accumulates_of_short h, fun hr => ?_,
    fun pre b he hp ha hne hl => ?_,
    deliver_drops_invalid_of_failure h, fun pre f rest he hp ha hl => ⟨fun hv => ?_, fun hv => ?_⟩⟩, fun s t h => ?_,
    fun W s t h => ?_⟩
  · obtain ⟨hr, hb⟩ := deliver_short_of_no_head h hn
    exact ⟨hr, hb, by rw [hb, fstate_nil]⟩
  · have hb := deliver_empties_of_ok h hr
    exact ⟨hb, by rw [hb, fstate_nil]⟩
  · exact deliver_short_of_partial h he hp ha hne hl
  · obtain ⟨hr, hb⟩ := deliver_ok_of_valid h he hp ha hl hv
    exact ⟨hr, hb, by rw [hb, fstate_nil]⟩
  · obtain ⟨hr, rfl⟩ := deliver_fails_of_invalid h he hp ha hl hv
    exact ⟨hr, rfl, fstate_eq_accumulating_iff, fstate_eq_awaitingSync_iff⟩
  · rcases h with h | h <;> cases h <;> rfl
  · obtain ⟨u, hu, hbuf, -⟩ := exec_cmd_withBuf W s s.buf
    cases hu.symm.trans h
    rw [hbuf]

/-- Settles O33: a delivery rests or removes ten bytes, and by induction so does a run of empty ones. -/
theorem framerMakesProgress : Obligations.FramerMakesProgress := by
  unfold Obligations.FramerMakesProgress
  refine ⟨fun chunk now s t h => ?_, fun ts s hf hl => deliverAll_drain ts s hf (.inr hl),
    fun f now s hb hf hl ha hv => ?_⟩
  · obtain ⟨-, hd⟩ := exec_deliver_delivered h
    exact hd.progress.imp_left And.right
  · have he : s.buf ++ f = [] ++ f ++ [] := by rw [hb, List.append_nil]
    have hx := exec_deliver_valid hf he List.not_mem_nil ha hl hv (now := now)
    have hrun := deliverAll_singleton hx
    rw [emittedFrame_interpreted he hl] at hrun
    exact ⟨_, hrun⟩

/-- Settles O35: the bytes at rest and the first of the chunk are the ten validated. -/
theorem partialFrameSwallowsTheNextOne : Obligations.PartialFrameSwallowsTheNextOne := by
  unfold Obligations.PartialFrameSwallowsTheNextOne
  intro chunk now s hf ha h1 h9 hc hv
  have hne : s.buf ≠ [] := List.length_pos_iff.mp h1
  have he : s.buf ++ chunk =
      [] ++ (s.buf ++ chunk.take (10 - s.buf.length)) ++ chunk.drop (10 - s.buf.length) := by
    rw [List.nil_append, List.append_assoc, List.take_append_drop]
  have hl : (s.buf ++ chunk.take (10 - s.buf.length)).length = 10 := by
    rw [List.length_append, List.length_take_of_le hc]
    omega
  obtain ⟨code, hcode, hx⟩ := exec_deliver_invalid hf he List.not_mem_nil (aligned_append ha hne _) hl hv now
  exact ⟨_, hx, rfl, rfl, discarded_reports_failure hcode .., rfl⟩

/-- Settles O36, by the lengths of the parts of the buffer. -/
theorem failedValidationGrowsTheBufferByTheRest : Obligations.FailedValidationGrowsTheBufferByTheRest := by
  unfold Obligations.FailedValidationGrowsTheBufferByTheRest
  intro chunk now s t x h hst hx
  obtain ⟨-, hd⟩ := exec_deliver_delivered h
  exact hd.length_of_failure hst hx

/-- Settles O37, by outcome: only the interpreter sees the timestamp. -/
theorem timestampIsOnlyCopied : Obligations.TimestampIsOnlyCopied := by
  unfold Obligations.TimestampIsOnlyCopied
  intro chunk now now' s t h
  obtain ⟨hf, pre, b, he, hp, ha, rfl⟩ := exec_deliver_inv h
  obtain ⟨hev, hother⟩ := frameBuffer_timestamp b now now' pre.length s
  exact ⟨hev, by rw [exec_deliver_parts hf he hp ha, hother]⟩

end Sys2Proof.Proofs
end

section
/-! PROOFS. One chunk against one byte at a time (R153). -/

namespace Sys2Proof.Proofs

open Sys2Proof Sys2Proof.Machine

/-! ## Runs: joining them, and what they depend on -/

theorem deliverAll_append {xs ys : List (List Byte × Timestamp)} {s t u : State} {a b : List (List Byte)}
    (hx : deliverAll xs s = some (t, a)) (hy : deliverAll ys t = some (u, b)) :
    deliverAll (xs ++ ys) s = some (u, a ++ b) := by
  induction xs generalizing s a with
  | nil =>
    cases hx
    exact hy
  | cons x xs ih =>
    obtain ⟨m, more, hm, hrest, rfl⟩ := deliverAll_cons_eq_some_iff.mp hx
    rw [List.append_assoc]
    exact deliverAll_cons_eq_some_iff.mpr ⟨m, more ++ b, hm, ih hrest, rfl⟩

/-- What a delivery keeps and reports depends on the bytes alone. -/
theorem frameBuffer_buf_st_congr (b : List Byte) (now : Timestamp) (d : Nat) (s s' : State) :
    (frameBuffer b now d s).buf = (frameBuffer b now d s').buf ∧
      (frameBuffer b now d s).st = (frameBuffer b now d s').st := by
  obtain h | ⟨f, h⟩ | ⟨code, rest, h⟩ := frameBuffer_shape b <;> rw [h, h]
  · exact ⟨rfl, rfl⟩
  · exact ⟨by rw [interpreted_buf, interpreted_buf], interpreted_st_congr f now d s s'⟩
  · exact ⟨rfl, rfl⟩

/-- A delivery to another state with the same buffer and parameters. -/
theorem exec_deliver_congr {chunk : List Byte} {now : Timestamp} {s s' t : State}
    (h : exec (.deliver chunk now) s = .next t) (hb : s'.buf = s.buf) (hp : s'.params = s.params) :
    ∃ t', exec (.deliver chunk now) s' = .next t' ∧ t'.buf = t.buf ∧ t'.params = t.params ∧
      emittedFrame s' chunk t' = emittedFrame s chunk t := by
  have htp := exec_next_params h
  obtain ⟨hf, pre, b, he, hpre, ha, rfl⟩ := exec_deliver_inv h
  have hx := exec_deliver_parts (now := now) (fits_of_length_le hf hp (by rw [hb])) (by rw [hb, he]) hpre ha
  obtain ⟨hbuf, hst⟩ := frameBuffer_buf_st_congr b now pre.length s' s
  refine ⟨_, hx, hbuf, by rw [exec_next_params hx, hp, htp], ?_⟩
  rw [emittedFrame, emittedFrame, hst, hb]

/-- So the frames a run emits depend on the buffer and the parameters alone. -/
theorem deliverAll_congr {xs : List (List Byte × Timestamp)} {s s' t : State} {frames : List (List Byte)}
    (h : deliverAll xs s = some (t, frames)) (hb : s'.buf = s.buf) (hp : s'.params = s.params) :
    ∃ t', deliverAll xs s' = some (t', frames) := by
  induction xs generalizing s s' frames with
  | nil =>
    cases h
    exact ⟨s', rfl⟩
  | cons x xs ih =>
    obtain ⟨m, more, hm, hrest, rfl⟩ := deliverAll_cons_eq_some_iff.mp h
    obtain ⟨m', hm', hmb, hmp, hme⟩ := exec_deliver_congr hm hb hp
    obtain ⟨t', ht'⟩ := ih hrest hmb hmp
    exact ⟨t', deliverAll_cons_eq_some_iff.mpr ⟨m', more, hm', ht', by rw [hme]⟩⟩

/-! ## One delivery of a whole frame -/

/-- The frames are the one frame `f` where it is valid, and none where not. -/
def emitsIfValid (f : List Byte) (frames : List (List Byte)) : Prop :=
  (rxValid f → frames = [f]) ∧ (¬ rxValid f → frames = [])

theorem emitsIfValid.unique {f : List Byte} {a b : List (List Byte)} (ha : emitsIfValid f a) (hb : emitsIfValid f b) :
    a = b := by
  by_cases hv : rxValid f
  · rw [ha.1 hv, hb.1 hv]
  · rw [ha.2 hv, hb.2 hv]

theorem emitsIfValid_of_valid {f : List Byte} (hv : rxValid f) : emitsIfValid f [f] :=
  ⟨fun _ => rfl, fun hn => absurd hv hn⟩

theorem emitsIfValid_of_invalid {f : List Byte} (hv : ¬ rxValid f) : emitsIfValid f [] :=
  ⟨fun h => absurd h hv, fun _ => rfl⟩

/-- A delivery that completes a frame: what it emits, and the bytes after the frame if any are all it can keep. -/
theorem exec_deliver_emits {chunk pre f rest : List Byte} {s : State} (hf : fits s chunk)
    (he : s.buf ++ chunk = pre ++ f ++ rest) (hp : headMarker ∉ pre) (ha : aligned f) (hl : f.length = 10)
    (now : Timestamp) :
    ∃ t, exec (.deliver chunk now) s = .next t ∧ (t.buf = [] ∨ t.buf = rest) ∧
      emitsIfValid f (emittedFrame s chunk t).toList := by
  by_cases hv : rxValid f
  · refine ⟨_, exec_deliver_valid hf he hp ha hl hv, .inl (by simp), ?_⟩
    rw [emittedFrame_interpreted he hl]
    exact emitsIfValid_of_valid hv
  · obtain ⟨code, hc, hx⟩ := exec_deliver_invalid hf he hp ha hl hv now
    refine ⟨_, hx, .inr rfl, ?_⟩
    rw [emittedFrame_discarded]
    exact emitsIfValid_of_invalid hv

/-! ## Resynchronisation of a growing buffer -/

theorem resync_of_aligned {b : List Byte} (h : aligned b) : resync b = b :=
  (resync_append (pre := []) List.not_mem_nil h).2

/-- Bytes before the first marker are lost wherever the buffer is cut. -/
theorem resync_append_of_not_mem {pre : List Byte} (h : headMarker ∉ pre) (b : List Byte) :
    resync (pre ++ b) = resync b := by
  rw [resync, syncCount_append h, List.drop_length_add_append, resync]

/-- A frame stays in the resynchronised buffer, whatever comes after. -/
theorem le_length_resync_append {w pre f rest : List Byte} (he : w = pre ++ f ++ rest) (hp : headMarker ∉ pre)
    (ha : aligned f) (hl : f.length = 10) (more : List Byte) : 10 ≤ (resync (w ++ more)).length := by
  have hne : f ≠ [] := List.ne_nil_of_length_pos (by omega)
  rw [he, List.append_assoc, List.append_assoc, resync_append_of_not_mem hp,
    resync_of_aligned (aligned_append ha hne _), List.length_append, hl]
  exact Nat.le_add_right ..

theorem aligned_of_append {g r : List Byte} (h : aligned (g ++ r)) : aligned g := by
  cases g with
  | nil => exact aligned_nil
  | cons x g => exact h

/-! ## Byte by byte -/

/-- One byte fits where the buffer rests. -/
theorem fits_byte {s : State} (hb : restAligned s.buf) (hleg : s.params.legal = true) (x : Byte) : fits s [x] := by
  intro c hc
  obtain ⟨-, h9⟩ := hb
  simp only [Params.legal, hc, decide_eq_true_eq] at hleg
  simp only [List.length_singleton]
  omega

/-- One more byte leaves a buffer at rest: it is too few to leave anything behind a frame. -/
theorem exec_deliver_byte {s : State} (hb : restAligned s.buf) (hleg : s.params.legal = true) (x : Byte)
    (now : Timestamp) :
    ∃ t, exec (.deliver [x] now) s = .next t ∧ restAligned t.buf ∧ t.params.legal = true := by
  obtain ⟨t, ht⟩ := exec_deliver_of_fits (fits_byte hb hleg x) now
  obtain ⟨-, hd⟩ := exec_deliver_delivered ht
  refine ⟨t, ht, hd.progress.elim id fun h => ?_, by rw [exec_next_params ht, hleg]⟩
  obtain ⟨-, h9⟩ := hb
  have h0 : t.buf = [] := by
    apply List.eq_nil_of_length_eq_zero
    simp only [List.length_singleton] at h
    omega
  simp [h0]

/-- Feeding bytes completes and leaves a buffer at rest. -/
theorem exists_deliverAll_bytes (L : List (Byte × Timestamp)) {s : State} (hb : restAligned s.buf)
    (hleg : s.params.legal = true) :
    ∃ t frames, deliverAll (byteAtATime L) s = some (t, frames) ∧ restAligned t.buf := by
  induction L generalizing s with
  | nil => exact ⟨s, [], rfl, hb⟩
  | cons x L ih =>
    obtain ⟨m, hm, hmb, hml⟩ := exec_deliver_byte hb hleg x.1 x.2
    obtain ⟨t, more, ht, htb⟩ := ih hmb hml
    exact ⟨t, _, deliverAll_cons_eq_some_iff.mpr ⟨m, more, hm, ht, rfl⟩, htb⟩

/-- While fewer than ten aligned bytes have come in, feeding bytes is resynchronising all of them. -/
theorem deliverAll_bytes_short (L : List (Byte × Timestamp)) {s : State} (hb : restAligned s.buf)
    (hleg : s.params.legal = true) (hl : (resync (s.buf ++ L.map Prod.fst)).length < 10) :
    ∃ t, deliverAll (byteAtATime L) s = some (t, []) ∧ t.buf = resync (s.buf ++ L.map Prod.fst) ∧
      t.params = s.params := by
  induction L generalizing s with
  | nil =>
    rw [List.map_nil, List.append_nil, resync_of_aligned hb.1]
    exact ⟨s, rfl, rfl, rfl⟩
  | cons x L ih =>
    obtain ⟨m, hm, hmb, hml⟩ := exec_deliver_byte hb hleg x.1 x.2
    have hmp := exec_next_params hm
    obtain ⟨-, hd⟩ := exec_deliver_delivered hm
    have hcut : s.buf ++ (x :: L).map Prod.fst = (s.buf ++ [x.1]) ++ L.map Prod.fst := by simp
    rw [hcut] at hl ⊢
    cases hd with
    | short pre b he hp ha =>
      rw [he, List.append_assoc, resync_append_of_not_mem hp] at hl ⊢
      obtain ⟨t, ht, htb, htp⟩ := ih hmb hml hl
      exact ⟨t, deliverAll_cons_eq_some_iff.mpr ⟨_, [], hm, ht, rfl⟩, htb, htp.trans hmp⟩
    | invalid pre f rest code he hp ha hfl => exact absurd hl (le_length_resync_append he hp ha hfl _).not_gt
    | valid pre f rest he hp ha hfl => exact absurd hl (le_length_resync_append he hp ha hfl _).not_gt

/-- Feeding the bytes up to the end of the first frame validates that frame and empties the buffer. -/
theorem deliverAll_bytes_frame {L : List (Byte × Timestamp)} {pre f : List Byte} {s : State} (hb : s.buf = [])
    (hleg : s.params.legal = true) (he : L.map Prod.fst = pre ++ f) (hp : headMarker ∉ pre) (ha : aligned f)
    (hl : f.length = 10) :
    ∃ t frames, deliverAll (byteAtATime L) s = some (t, frames) ∧ t.buf = [] ∧ t.params = s.params ∧
      emitsIfValid f frames := by
  obtain ⟨g, y, rfl⟩ : ∃ g y, f = g ++ [y] :=
    (List.eq_nil_or_concat' f).resolve_left (List.ne_nil_of_length_pos (by omega))
  rw [← List.append_assoc] at he
  obtain ⟨L₀, L₁, rfl, h₀, h₁⟩ := List.map_eq_append_iff.mp he
  obtain ⟨x, rfl, rfl⟩ := List.map_eq_singleton_iff.mp h₁
  have hg : resync (s.buf ++ L₀.map Prod.fst) = g := by
    rw [hb, List.nil_append, h₀, resync_append_of_not_mem hp, resync_of_aligned (aligned_of_append ha)]
  have hgl : g.length = 9 := by simpa using hl
  have hrest : restAligned s.buf := by simp [hb]
  obtain ⟨m, hm, hmb, hmp⟩ := deliverAll_bytes_short L₀ hrest hleg (by rw [hg]; omega)
  rw [hg] at hmb
  have hmr : restAligned m.buf := by
    rw [hmb]
    exact ⟨aligned_of_append ha, hgl.le⟩
  have hfit : fits m [x.1] := fits_byte hmr (by rw [hmp, hleg]) x.1
  obtain ⟨t, ht, htb, hem⟩ :=
    exec_deliver_emits hfit (pre := []) (rest := []) (by simp [hmb]) List.not_mem_nil ha hl x.2
  have hrun := deliverAll_append hm (deliverAll_singleton ht)
  rw [List.nil_append] at hrun
  refine ⟨t, _, ?_, or_self_iff.mp htb, (exec_next_params ht).trans hmp, hem⟩
  rw [byteAtATime, List.map_append]
  exact hrun

/-- Feeding a stream from an empty buffer: what its first frame emits, then what the bytes after that frame emit when
fed alone. -/
theorem deliverAll_bytes_split {L : List (Byte × Timestamp)} {pre f rest : List Byte} {s : State} (hb : s.buf = [])
    (hleg : s.params.legal = true) (he : L.map Prod.fst = pre ++ f ++ rest) (hp : headMarker ∉ pre) (ha : aligned f)
    (hl : f.length = 10) :
    ∃ u t first more, deliverAll (byteAtATime L) s = some (u, first ++ more) ∧
      deliverAll (byteAtATime (L.drop (pre.length + 10))) s = some (t, more) ∧ emitsIfValid f first := by
  have hn : (pre ++ f).length = pre.length + 10 := by rw [List.length_append, hl]
  have htake : (L.take (pre.length + 10)).map Prod.fst = pre ++ f := by
    rw [List.map_take, he, List.take_left' hn]
  obtain ⟨m, first, hm, hmb, hmp, hem⟩ := deliverAll_bytes_frame hb hleg htake hp ha hl
  have hrest : restAligned m.buf := by simp [hmb]
  obtain ⟨u, more, hu, -⟩ :=
    exists_deliverAll_bytes (L.drop (pre.length + 10)) hrest (by rw [hmp, hleg])
  obtain ⟨t, ht⟩ := deliverAll_congr hu (by rw [hb, hmb]) hmp.symm
  refine ⟨u, t, first, more, ?_, ht, hem⟩
  have hrun := deliverAll_append hm hu
  rwa [byteAtATime, byteAtATime, ← List.map_append, List.take_append_drop] at hrun

/-! ## The obligation -/

/-- Settles O34: both ways validate the first frame; fed whole, the bytes after it make none. -/
theorem chunkingChangesTheFramesExactlySo : Obligations.ChunkingChangesTheFramesExactlySo := by
  unfold Obligations.ChunkingChangesTheFramesExactlySo
  intro L now s hb hleg hf
  have hrest : restAligned s.buf := by simp [hb]
  have hbuf : s.buf ++ L.map Prod.fst = L.map Prod.fst := by rw [hb, List.nil_append]
  obtain ⟨t₁, ht₁⟩ := exec_deliver_of_fits hf now
  obtain ⟨t₂, each, ht₂, -, h9⟩ := exists_deliverAll_bytes L hrest hleg
  refine ⟨t₁, t₂, _, each, deliverAll_singleton ht₁, ht₂, h9, fun pre b he hp ha hl => ?_,
    fun pre f rest he hp ha hl => ?_⟩
  · have hone := exec_deliver_waits hf (hbuf.trans he) hp ha hl now
    cases hone.symm.trans ht₁
    have hres : resync (s.buf ++ L.map Prod.fst) = b := by
      rw [hbuf, he, resync_append_of_not_mem hp, resync_of_aligned ha]
    obtain ⟨u, hu, -⟩ := deliverAll_bytes_short L hrest hleg (by rw [hres]; exact hl)
    cases hu.symm.trans ht₂
    exact ⟨rfl, rfl⟩
  · obtain ⟨t, ht, -, hone⟩ := exec_deliver_emits hf (hbuf.trans he) hp ha hl now
    cases ht.symm.trans ht₁
    obtain ⟨u, t₃, first, more, hu, ht₃, hfirst⟩ := deliverAll_bytes_split hb hleg he hp ha hl
    cases hu.symm.trans ht₂
    rw [hfirst.unique hone]
    exact ⟨t₃, more, ht₃, hone.1, hone.2, rfl, List.self_eq_append_right⟩

end Sys2Proof.Proofs
end

section
/-! PROOFS. The Frame Encoder: what each command decodes from and sends (R103 to R116), and what a command may depend
on. -/

namespace Sys2Proof.Proofs

open Sys2Proof Sys2Proof.Machine

/-! ## The range check (R109) -/

theorem periodOk_iff (c : PeriodCheck) (minutes : Half) :
    periodOk c minutes = true ↔
      c = .noCheck ∨ (c = .byte ∧ minutes.toNat ≤ 255) ∨ (c = .sensor ∧ minutes.toNat ≤ 30) := by
  cases c <;> simp [periodOk]

theorem not_periodOk_iff (c : PeriodCheck) (minutes : Half) :
    ¬ periodOk c minutes = true ↔
      (c = .byte ∧ 255 < minutes.toNat) ∨ (c = .sensor ∧ 30 < minutes.toNat) := by
  cases c <;> simp [periodOk]

theorem exec_setWorkingPeriod_of_ok {minutes : Half} {s : State} (h : periodOk s.params.periodCheck minutes = true)
    (dev? : Option DevId) :
    exec (.setWorkingPeriod minutes dev?) s = emitCommand subWorkingPeriod flagSet (lo8 minutes) 0 0 dev? s :=
  if_pos h

theorem exec_setWorkingPeriod_of_not_ok {minutes : Half} {s : State}
    (h : ¬ periodOk s.params.periodCheck minutes = true) (dev? : Option DevId) :
    exec (.setWorkingPeriod minutes dev?) s = rejectCommand .badArg s :=
  if_neg h

/-- A byte is its own low byte. -/
@[simp] theorem lo8_setWidth (v : Byte) : lo8 (v.setWidth 16) = v := by
  apply BitVec.eq_of_toNat_eq
  have := v.isLt
  simp only [lo8, BitVec.extractLsb'_toNat, BitVec.toNat_setWidth, Nat.shiftRight_eq_div_pow]
  omega

/-- The continuous period passes the check, but for a sensor's above 30. -/
theorem periodOk_byte {c : PeriodCheck} {v : Byte} (h : c = .sensor → v.toNat ≤ 30) :
    periodOk c (v.setWidth 16) = true := by
  have := v.isLt
  cases c <;> simp [periodOk] at h ⊢ <;> omega

/-! ## What a command depends on (R116) -/

/-- Both answers complete, with the same on every port. -/
def sameOutputs (r r' : Result) : Prop :=
  ∃ t t', r = .next t ∧ r' = .next t' ∧ t'.tx = t.tx ∧ t'.ev = t.ev ∧ t'.st = t.st

theorem emitCommand_sameOutputs {dev? : Option DevId} {s s' : State} (h : dev?.getD s.devid = dev?.getD s'.devid)
    (p0 p1 p2 p6 p7 : Byte) : sameOutputs (emitCommand p0 p1 p2 p6 p7 dev? s) (emitCommand p0 p1 p2 p6 p7 dev? s') :=
  ⟨_, _, emitCommand_next .., emitCommand_next .., by rw [h], rfl, rfl⟩

theorem rejectCommand_sameOutputs (code : StatusCode) (s s' : State) :
    sameOutputs (rejectCommand code s) (rejectCommand code s') :=
  ⟨_, _, rejectCommand_next .., rejectCommand_next .., rfl, rfl, rfl⟩

/-- A command's outputs are settled by its word, the parameters and its target. -/
theorem exec_cmd_sameOutputs {W : BitVec 40} {s s' : State} (hp : s.params = s'.params)
    (ht : (wordTarget W).getD s.devid = (wordTarget W).getD s'.devid) :
    sameOutputs (exec (decode (.cmd W)) s) (exec (decode (.cmd W)) s') := by
  have hemit := emitCommand_sameOutputs (dev? := devOperand W) ht
  simp only [decode, decodeCmd]
  split <;> simp only [exec]
  case h_7 =>
    simp only [execSetWorkingPeriod, ← hp]
    split
    · exact hemit ..
    · exact rejectCommand_sameOutputs ..
  case h_1 | h_5 | h_10 | h_11 | h_12 =>
    simp only [execSetDataReportingMode, execSetStatus, execForceActiveMode, execForceQueryMode,
      execForceContinuousWorkingPeriod, ← hp]
    exact hemit ..
  case h_13 | h_14 | h_15 | h_16 => exact rejectCommand_sameOutputs ..
  all_goals exact hemit ..

/-- A command completes and writes the ports alone, and what it reports says whether it emits a frame. -/
theorem exec_cmd_next (W : BitVec 40) (s : State) :
    ∃ tx code, exec (decode (.cmd W)) s = .next { s with tx := tx, ev := none, st := some ⟨code, 0, none⟩ } ∧
      ((code = .ok ∧ ∃ F, tx = some F ∧ txValid F) ∨ ((code = .badOp ∨ code = .badArg) ∧ tx = none)) := by
  obtain ⟨p0, p1, p2, p6, p7, -, -, he⟩ | ⟨he, -⟩ | ⟨he, -⟩ := exec_cmd_cases W s
  · exact ⟨_, _, he.trans (emitCommand_next ..), .inl ⟨rfl, _, rfl, outboundFrame_txValid ..⟩⟩
  · exact ⟨_, _, he.trans (rejectCommand_next ..), .inr ⟨.inl rfl, rfl⟩⟩
  · exact ⟨_, _, he.trans (rejectCommand_next ..), .inr ⟨.inr rfl, rfl⟩⟩

/-- Without a range check every `OP` up to `0xB` is accepted. -/
theorem exec_cmd_accepts {W : BitVec 40} {s : State} (hc : s.params.periodCheck = .noCheck)
    (hop : (opField W).toNat ≤ 0xB) : ∃ F, exec (decode (.cmd W)) s =
      .next { s with tx := some F, ev := none, st := some ⟨.ok, 0, none⟩ } := by
  obtain ⟨p0, p1, p2, p6, p7, -, -, he⟩ | ⟨-, h⟩ | ⟨-, h⟩ := exec_cmd_cases W s
  · exact ⟨_, he.trans (emitCommand_next ..)⟩
  · omega
  · exact absurd hc h

/-! ## The obligations -/

/-- Settles O10: row 0x0 of the decoder, and the frame of each mode. -/
theorem setDataReportingModeEmitsFrame : Obligations.SetDataReportingModeEmitsFrame := by
  unfold Obligations.SetDataReportingModeEmitsFrame
  refine ⟨fun W h => ?_, fun dev? s => emitCommand_next .., fun dev? s => emitCommand_next ..⟩
  rw [decode, decodeCmd, opField, h, ← modeOperand_eq]
  rfl

/-- Settles O11: the rows of the five commands, and their frames. -/
theorem queryCommandsEmitFrame : Obligations.QueryCommandsEmitFrame := by
  unfold Obligations.QueryCommandsEmitFrame
  refine ⟨fun W => ⟨?_, ?_, ?_, ?_, ?_⟩, fun dev? s => ⟨emitCommand_next .., emitCommand_next .., emitCommand_next ..,
    emitCommand_next .., emitCommand_next ..⟩⟩
  all_goals
    intro h
    rw [decode, decodeCmd, opField, h]
    rfl

/-- Settles O12: row 0x3, and the frame with the new id in its slot. -/
theorem setDeviceIdEmitsFrame : Obligations.SetDeviceIdEmitsFrame := by
  unfold Obligations.SetDeviceIdEmitsFrame
  refine ⟨fun W h => ?_, fun newId dev? s => emitCommand_next ..⟩
  rw [decode, decodeCmd, opField, h]
  rfl

/-- Settles O13: row 0x4, and the frame of each mode. -/
theorem setStatusEmitsFrame : Obligations.SetStatusEmitsFrame := by
  unfold Obligations.SetStatusEmitsFrame
  refine ⟨fun W h => ?_, fun dev? s => emitCommand_next .., fun dev? s => emitCommand_next ..⟩
  rw [decode, decodeCmd, opField, h, ← powerOperand_eq]
  rfl

/-- Settles O14: row 0x6, and the two answers of the range check. -/
theorem setWorkingPeriodSendsLowByteOrRejects : Obligations.SetWorkingPeriodSendsLowByteOrRejects := by
  unfold Obligations.SetWorkingPeriodSendsLowByteOrRejects
  refine ⟨fun W h => ?_, fun minutes dev? s h => ?_, fun minutes dev? s h => ?_⟩
  · rw [decode, decodeCmd, opField, h]
    rfl
  · rw [exec_setWorkingPeriod_of_ok ((periodOk_iff ..).mpr h), emitCommand_next, lo8]
  · rw [exec_setWorkingPeriod_of_not_ok ((not_periodOk_iff ..).mpr h), rejectCommand_next]

/-- Settles O15: the rows of the three shorthands, and their frames. -/
theorem shorthandsEmitFrame : Obligations.ShorthandsEmitFrame := by
  unfold Obligations.ShorthandsEmitFrame
  refine ⟨fun W => ⟨?_, ?_, ?_⟩,
    fun dev? s => ⟨emitCommand_next .., emitCommand_next .., emitCommand_next ..⟩⟩
  all_goals
    intro h
    rw [decode, decodeCmd, opField, h]
    rfl

/-- Settles O16: the first two are the same command; the third's count is a byte, which the check accepts. -/
theorem shorthandsEqualTheirExpansions : Obligations.ShorthandsEqualTheirExpansions := by
  unfold Obligations.ShorthandsEqualTheirExpansions
  refine fun dev? s => ⟨rfl, rfl, fun h => ?_⟩
  rw [exec_setWorkingPeriod_of_ok (periodOk_byte h), lo8_setWidth]
  rfl

/-- Settles O17: the last four rows, and their answer. -/
theorem reservedOpsReportBadOp : Obligations.ReservedOpsReportBadOp := by
  unfold Obligations.ReservedOpsReportBadOp
  refine ⟨fun W => ⟨?_, ?_, ?_, ?_⟩, fun s => ⟨rejectCommand_next .., rejectCommand_next .., rejectCommand_next ..,
    rejectCommand_next ..⟩⟩
  all_goals
    intro h
    rw [decode, decodeCmd, opField, h]
    rfl

/-- Settles O19, by the answers a command can give. -/
theorem okCommandEmitsOneValidFrame : Obligations.OkCommandEmitsOneValidFrame := by
  unfold Obligations.OkCommandEmitsOneValidFrame
  intro W s
  obtain ⟨tx, code, he, hout⟩ := exec_cmd_next W s
  have hr : ∀ c, State.reports { s with tx := tx, ev := none, st := some ⟨code, 0, none⟩ } c ↔ code = c :=
    reports_iff_of_st (x := ⟨code, 0, none⟩) rfl
  refine ⟨_, he, rfl, fun hok => ?_, fun hn => ?_, fun hc hop => ?_⟩
  · obtain rfl := (hr _).mp hok
    exact (hout.resolve_right (by simp)).2
  · rw [hr] at hn
    rw [hr, hr]
    exact (hout.resolve_left fun h => hn h.1).symm
  · obtain ⟨F, hF⟩ := exec_cmd_accepts hc hop
    rw [← Host.Outcome.next.inj (hF.symm.trans he)]
    exact ⟨_, rfl, rfl⟩

/-- Settles O20: a command writes the ports, and without a target of its own it reads the session id. -/
theorem commandsWriteNoRegisterAndReadOnlyTheSessionId :
    Obligations.CommandsWriteNoRegisterAndReadOnlyTheSessionId := by
  unfold Obligations.CommandsWriteNoRegisterAndReadOnlyTheSessionId
  intro W s₁ s₂ t₁ h
  have hframe : t₁.devid = s₁.devid ∧ t₁.buf = s₁.buf := by
    obtain ⟨tx, code, he, -⟩ := exec_cmd_next W s₁
    cases he.symm.trans h
    exact ⟨rfl, rfl⟩
  refine ⟨hframe.1, hframe.2, fun hp hid => ?_⟩
  have ht : (wordTarget W).getD s₁.devid = (wordTarget W).getD s₂.devid := by
    rw [wordTarget_getD, wordTarget_getD]
    split
    · rfl
    · rename_i hdp
      exact hid (Bool.not_eq_true _ ▸ hdp)
  obtain ⟨t, t₂, he, he₂, hout⟩ := exec_cmd_sameOutputs hp ht
  cases he.symm.trans h
  exact ⟨t₂, he₂, hout⟩

end Sys2Proof.Proofs
end

section
/-! PROOFS. The checksum (R91, R94): reduced at every byte, and its corner cases. -/

namespace Sys2Proof.Proofs

open Sys2Proof Sys2Proof.Machine

/-- Two sequences with the same sum modulo 256 have the same checksum. -/
theorem checksum_eq_iff {s s' : List Byte} :
    checksum s = checksum s' ↔ (s.map BitVec.toNat).sum % 256 = (s'.map BitVec.toNat).sum % 256 := by
  rw [← BitVec.toNat_inj, checksum_toNat, checksum_toNat]

/-- The sum of bytes in 8-bit arithmetic is the residue of their sum. -/
theorem foldl_add_toNat (s : List Byte) (a : Byte) :
    (s.foldl (fun acc b => acc + b) a).toNat = (a.toNat + (s.map BitVec.toNat).sum) % 256 := by
  induction s generalizing a with
  | nil => simp [Nat.mod_eq_of_lt a.isLt]
  | cons b s ih => simp [ih, Nat.add_assoc]

theorem checksum_eq_zero_of_dvd {s : List Byte} (h : 256 ∣ (s.map BitVec.toNat).sum) : checksum s = 0 := by
  apply BitVec.eq_of_toNat_eq
  rw [checksum_toNat]
  exact Nat.mod_eq_zero_of_dvd h

/-- A change by `k` at one place and by `-k` at another cancel modulo 256. -/
theorem checksum_shift (a b c : List Byte) (x y k : Byte) :
    checksum (a ++ (x + k) :: b ++ (y - k) :: c) = checksum (a ++ x :: b ++ y :: c) := by
  have hk := k.isLt
  simp only [checksum_eq_iff, List.map_append, List.map_cons, List.sum_append, List.sum_cons, BitVec.toNat_add,
    BitVec.toNat_sub]
  omega

/-- Each byte adds at most 255. -/
theorem sum_toNat_le (s : List Byte) : (s.map BitVec.toNat).sum ≤ s.length * 255 := by
  have h : ∀ n ∈ s.map BitVec.toNat, n ≤ 255 := by
    intro n hn
    obtain ⟨b, -, rfl⟩ := List.mem_map.mp hn
    exact Nat.le_of_lt_succ b.isLt
  simpa using List.sum_le_card_nsmul _ 255 h

/-! ## The obligations -/

/-- Settles O22, by induction on the bytes. -/
theorem checksumMayBeReducedAtEveryByte : Obligations.ChecksumMayBeReducedAtEveryByte := by
  unfold Obligations.ChecksumMayBeReducedAtEveryByte
  intro s
  apply BitVec.eq_of_toNat_eq
  rw [checksum_toNat, foldl_add_toNat]
  simp

/-- Settles O23: the checksum is settled by the sum, and the sum by the multiset of the bytes. -/
theorem checksumCornerCases : Obligations.ChecksumCornerCases := by
  unfold Obligations.ChecksumCornerCases
  refine ⟨fun n => ?_, fun s => checksum_eq_zero_of_dvd, fun s s' h => ?_, checksum_shift, fun s hl => ?_,
    fun s hl => ?_, by decide⟩
  · exact checksum_eq_zero_of_dvd (by simp)
  · rw [checksum_eq_iff, (h.map BitVec.toNat).sum_eq]
  · exact (sum_toNat_le s).trans_eq (by rw [hl])
  · exact (sum_toNat_le s).trans_eq (by rw [hl])

end Sys2Proof.Proofs
end

section
/-! PROOFS. The inbound-frame rows on an empty buffer (R145, R174 to R179). First the facts about the frames, then the
obligations. -/

namespace Sys2Proof.Proofs

open Sys2Proof Sys2Proof.Machine

/-! ## Frames by their bytes -/

theorem aligned_otherClassBytes (cls d2 d3 d4 d5 d6 d7 ck : Byte) :
    aligned (otherClassBytes cls d2 d3 d4 d5 d6 d7 ck) :=
  fun _ h => (Option.some.inj h).symm

/-- Such a frame carries its tail marker, so its checksum byte alone decides (R73). -/
theorem rxValid_otherClassBytes_iff (cls d2 d3 d4 d5 d6 d7 ck : Byte) :
    rxValid (otherClassBytes cls d2 d3 d4 d5 d6 d7 ck) ↔ checksum [d2, d3, d4, d5, d6, d7] = ck :=
  and_iff_left rfl

/-- A frame with a right checksum, on the empty buffer under legal parameters, is interpreted. -/
theorem exec_deliver_frameBytes {cls d2 d3 d4 d5 d6 d7 ck : Byte} {s : State} (hb : s.buf = [])
    (hleg : s.params.legal = true) (hck : checksum [d2, d3, d4, d5, d6, d7] = ck) (now : Timestamp) :
    exec (.deliver (otherClassBytes cls d2 d3 d4 d5 d6 d7 ck) now) s =
      .next (interpreted (otherClassBytes cls d2 d3 d4 d5 d6 d7 ck) now 0 s) :=
  exec_deliver_valid_on_empty hb hleg (aligned_otherClassBytes cls d2 d3 d4 d5 d6 d7 ck) rfl
    ((rxValid_otherClassBytes_iff ..).mpr hck)

/-- One with a wrong checksum is discarded whole. -/
theorem exec_deliver_frameBytes_badChecksum {cls d2 d3 d4 d5 d6 d7 ck : Byte} {s : State} (hb : s.buf = [])
    (hleg : s.params.legal = true) (hck : checksum [d2, d3, d4, d5, d6, d7] ≠ ck) (now : Timestamp) :
    exec (.deliver (otherClassBytes cls d2 d3 d4 d5 d6 d7 ck) now) s = .next (discarded .badChecksum [] 0 s) := by
  have hfit : fits s (otherClassBytes cls d2 d3 d4 d5 d6 d7 ck) := fits_one_frame hb hleg le_rfl
  have he : s.buf ++ otherClassBytes cls d2 d3 d4 d5 d6 d7 ck =
      [] ++ otherClassBytes cls d2 d3 d4 d5 d6 d7 ck ++ [] := by rw [hb, List.append_nil]
  rw [exec_deliver_frame hfit he List.not_mem_nil (aligned_otherClassBytes cls d2 d3 d4 d5 d6 d7 ck) rfl,
    frameBuffer_badChecksum (f := otherClassBytes cls d2 d3 d4 d5 d6 d7 ck) rfl hck]
  rfl

/-! ## Acknowledgments -/

section Ack

variable {sub d3 d4 d5 ck : Byte} {id : DevId} {s : State} (hb : s.buf = []) (hleg : s.params.legal = true)
  (hck : checksum [sub, d3, d4, d5, lo8 id, hi8 id] = ck) (now : Timestamp)

include hb hleg hck

/-- The delivery of a recognised acknowledgment: its id is assembled from the bytes it was split into. -/
theorem exec_deliver_ackBytes (hs : sub ∈ [(2 : Byte), 5, 6, 7, 8]) :
    exec (.deliver (ackBytes sub d3 d4 d5 id ck) now) s = .next { s with
      devid := id, buf := [], tx := none, ev := some (.ack sub d3 d4 d5 id now), st := some ⟨.ok, 0, some .ack⟩ } := by
  refine (exec_deliver_frameBytes (cls := ackClass) hb hleg hck now).trans ?_
  rw [interpreted_of_ack (f := otherClassBytes ackClass sub d3 d4 d5 (lo8 id) (hi8 id) ck) rfl hs]
  simp [otherClassBytes, byteAt]

/-- The delivery of any other acknowledgment. -/
theorem exec_deliver_ackBytes_unrecognised (hs : sub ∉ [(2 : Byte), 5, 6, 7, 8]) :
    exec (.deliver (ackBytes sub d3 d4 d5 id ck) now) s = .next { s with
      devid := id, buf := [], tx := none, ev := none, st := some ⟨.ok, 0, some .ackDropped⟩ } := by
  refine (exec_deliver_frameBytes (cls := ackClass) hb hleg hck now).trans ?_
  rw [interpreted_of_unrecognisedAck (f := otherClassBytes ackClass sub d3 d4 d5 (lo8 id) (hi8 id) ck) rfl hs]
  simp [otherClassBytes, byteAt]

end Ack

/-! ## The obligations -/

/-- Settles O40: each row is the delivery of an acknowledgment of its sub-command. -/
theorem ackFramesMakeTheirEvent : Obligations.AckFramesMakeTheirEvent := by
  unfold Obligations.AckFramesMakeTheirEvent
  intro d3 d4 d5 ck id now s hb hleg
  refine ⟨fun hck => ?_, fun hck => ?_, fun hck => ?_, fun hck => ?_, fun hck => ?_⟩
  all_goals
    rw [exec_of_encode_deliver rfl]
    exact exec_deliver_ackBytes hb hleg hck now (by decide)

/-- Settles O41: the row is the delivery of an acknowledgment of its sub-command. -/
theorem unrecognisedAckIsDroppedButSetsTheId : Obligations.UnrecognisedAckIsDroppedButSetsTheId := by
  unfold Obligations.UnrecognisedAckIsDroppedButSetsTheId
  intro sub d3 d4 d5 ck id now s hb hleg hs hck
  rw [exec_of_encode_deliver rfl]
  exact exec_deliver_ackBytes_unrecognised hb hleg hck now hs

/-- Settles O42: the row is the delivery of a frame of its class. -/
theorem unknownClassMakesItsEventAndKeepsTheId : Obligations.UnknownClassMakesItsEventAndKeepsTheId := by
  unfold Obligations.UnknownClassMakesItsEventAndKeepsTheId
  intro cls d2 d3 d4 d5 d6 d7 ck now s hb hleg hm ha hck
  rw [exec_of_encode_deliver rfl]
  refine (exec_deliver_frameBytes hb hleg hck now).trans ?_
  rw [interpreted_of_unknownClass (f := otherClassBytes cls d2 d3 d4 d5 d6 d7 ck) hm ha]
  rfl

/-- Settles O43: an instruction that stands for a delivery runs it, and that one fails the checksum test. -/
theorem frameRowsWithWrongChecksumAreDiscarded : Obligations.FrameRowsWithWrongChecksumAreDiscarded := by
  unfold Obligations.FrameRowsWithWrongChecksumAreDiscarded
  intro i d2 d3 d4 d5 d6 d7 cls ck now s hb hleg hi hck
  rw [exec_of_encode_deliver hi]
  exact exec_deliver_frameBytes_badChecksum hb hleg hck now

end Sys2Proof.Proofs
end

section
/-! PROOFS. The whole machine: the step (R10, R11), control and reset (R200, R240, R241), the outputs of a transaction
(R33, R211), what every step keeps (R22, R24, R29), and readings (R180). -/

namespace Sys2Proof.Proofs

open Sys2Proof Sys2Proof.Machine

/-! ## Steps by port -/

/-- A step that answered: a command, which leaves the registers alone; a delivery; or a control, which empties the
buffer. -/
theorem step_cases {s s' : State} (h : step s = .next s') :
    (s'.params = s.params ∧ s'.devid = s.devid ∧ s'.buf = s.buf) ∨
    (∃ chunk now rest, s.pending = .deliver chunk now :: rest ∧ fits s chunk ∧
      Delivered chunk now (s.withPending rest) s') ∨
    ∃ code rest, s.pending = .ctrl code :: rest ∧ s'.params = s.params ∧ s'.buf = [] ∧
      s'.devid = if code = 1 then broadcast else s.devid := by
  obtain ⟨t, rest, hp, he⟩ := step_inv h
  cases t with
  | cmd W =>
    obtain ⟨tx, code, hx, -⟩ := exec_cmd_next W (s.withPending rest)
    cases hx.symm.trans he
    exact .inl ⟨rfl, rfl, rfl⟩
  | deliver chunk now =>
    rw [exec_decode_delivery] at he
    obtain ⟨hf, hd⟩ := exec_deliver_delivered he
    exact .inr (.inl ⟨chunk, now, rest, hp, hf, hd⟩)
  | ctrl code =>
    refine .inr (.inr ⟨code, rest, hp, ?_⟩)
    obtain ⟨rfl, hx⟩ | ⟨rfl, hx⟩ := exec_ctrl_cases code (s.withPending rest) <;> cases hx.symm.trans he <;>
      exact ⟨rfl, rfl, rfl⟩

/-- A step keeps the parameters. -/
theorem step_next_params {s s' : State} (h : step s = .next s') : s'.params = s.params := by
  obtain ⟨t, rest, -, he⟩ := step_inv h
  exact (exec_next_params he).trans (State.withPending_params ..)

/-! ## The session id (R22) -/

/-- The interpreter changes the session id for a reply only. -/
theorem interpreted_devid_ne {f : List Byte} {now : Timestamp} {d : Nat} {s : State}
    (h : (interpreted f now d s).devid ≠ s.devid) : byteAt f 1 = 0xC0 ∨ byteAt f 1 = 0xC5 := by
  by_contra hn
  obtain ⟨hm, ha⟩ := not_or.mp hn
  exact h (by rw [interpreted_of_unknownClass hm ha])

/-- So does a delivery, which then emitted the reply. -/
theorem Delivered.devid_ne {chunk : List Byte} {now : Timestamp} {s t : State} (h : Delivered chunk now s t)
    (hne : t.devid ≠ s.devid) :
    ∃ f, emittedFrame s chunk t = some f ∧ (byteAt f 1 = 0xC0 ∨ byteAt f 1 = 0xC5) ∧
      t.devid = u16le (byteAt f 6) (byteAt f 7) := by
  cases h with
  | short => exact absurd rfl hne
  | invalid => exact absurd rfl hne
  | valid pre f rest he hp ha hl hv =>
    have hr := interpreted_devid_ne hne
    exact ⟨f, emittedFrame_interpreted he hl now s, hr, interpreted_devid_of_reply hr now _ s⟩

/-! ## The outputs of a delivery (R33, R211) -/

/-- A delivery's status record, its result and its event. -/
theorem Delivered.outputs {chunk : List Byte} {now : Timestamp} {s t : State} (h : Delivered chunk now s t) :
    ∃ x, t.st = some x ∧ (x.code = .short ∨ x.code = .badChecksum ∨ x.code = .badTail ∨ x.code = .ok) ∧
      (x.r.isSome = true ↔ x.code = .ok) ∧
      (t.ev.isSome = true ↔ x.r = some .meas ∨ x.r = some .ack ∨ x.r = some .unknownClass) := by
  cases h with
  | short => exact ⟨_, rfl, .inl rfl, by simp, by simp [waited]⟩
  | invalid pre f rest code he hp ha hl hv hc =>
    refine ⟨_, rfl, .inr (hc.imp_right .inl), ?_, by simp [discarded]⟩
    simpa using hc.ne_ok
  | valid pre f =>
    obtain ⟨r, hr, hev⟩ := interpreted_outputs f now pre.length s
    exact ⟨_, hr, .inr (.inr (.inr rfl)), by simp, by simpa using hev⟩

/-! ## The invariant (R12, R24) -/

/-- A buffer no longer than one that fitted is within capacity. -/
theorem memory_wf_of_fits {s : State} {chunk b : List Byte} (hf : fits s chunk)
    (hl : b.length ≤ s.buf.length + chunk.length) : Memory.wf s.params b = true := by
  have happ : Memory.wf s.params (appendChunk s.buf chunk) = true :=
    memory_wf_appendChunk (overflows_eq_false_iff.mpr hf)
  exact memory_wf_of_length_le (by rw [appendChunk, List.length_append]; exact hl) happ

theorem step_keeps_inv {s s' : State} (hi : s.Inv) (h : step s = .next s') : s'.Inv := by
  obtain ⟨hleg, hwf⟩ := hi
  have hp := step_next_params h
  refine ⟨by rw [hp, hleg], ?_⟩
  rw [hp]
  obtain ⟨-, -, hb⟩ | ⟨chunk, now, rest, -, hf, hd⟩ | ⟨code, rest, -, -, hb, -⟩ := step_cases h
  · rw [hb, hwf]
  · exact memory_wf_of_fits hf hd.length_le
  · rw [hb]
    exact memory_wf_clear s.params

/-! ## Readings (R180) -/

theorem reading_mul_ten (raw : Half) : reading raw * 10 = raw.toNat :=
  div_mul_cancel₀ _ (by norm_num)

/-! ## The obligations -/

/-- Settles O47: only an appended chunk makes the buffer longer, and the delivery checked that it fits. -/
theorem everyStepKeepsTheCapacityInvariant : Obligations.EveryStepKeepsTheCapacityInvariant := by
  unfold Obligations.EveryStepKeepsTheCapacityInvariant
  exact fun s s' => step_keeps_inv

/-- Settles O6, by the two forms of the host's sequence. -/
theorem stepRunsTheDecodedTransaction : Obligations.StepRunsTheDecodedTransaction := by
  unfold Obligations.StepRunsTheDecodedTransaction
  exact ⟨fun s t rest h => step_cons h, fun s h => step_nil h⟩

/-- Settles O8, by port; a delivery completes exactly where it fits. -/
theorem everyTransactionCompletesUnlessOverflow : Obligations.EveryTransactionCompletesUnlessOverflow := by
  unfold Obligations.EveryTransactionCompletesUnlessOverflow
  intro t s
  cases t with
  | cmd W =>
    obtain ⟨tx, code, hx, -⟩ := exec_cmd_next W s
    exact .inl ⟨_, hx⟩
  | deliver chunk now =>
    simp only [exec_decode_delivery]
    by_cases hf : fits s chunk
    · exact .inl (exec_deliver_of_fits hf now)
    · obtain ⟨c, hc, hlt⟩ := exists_cap_of_not_fits hf
      exact .inr ⟨chunk, now, c, rfl, hc, hlt, exec_deliver_of_not_fits hf now⟩
  | ctrl code =>
    obtain ⟨-, hx⟩ | ⟨-, hx⟩ := exec_ctrl_cases code s <;> exact .inl ⟨_, hx⟩

/-- Settles O48: commands keep the buffer, controls empty it, and a delivery that did not fail leaves it at rest. -/
theorem bufferRestsAlignedUnlessValidationFailed : Obligations.BufferRestsAlignedUnlessValidationFailed := by
  unfold Obligations.BufferRestsAlignedUnlessValidationFailed
  refine ⟨fun s s' h hr => ?_, fun chunk now s t h hc ht => ?_⟩
  · obtain ⟨-, -, hb⟩ | ⟨chunk, now, rest, -, -, hd⟩ | ⟨code, rest, -, -, hb, -⟩ := step_cases h
    · rw [hb]
      exact .inl hr
    · by_cases hf : s'.reports .badChecksum ∨ s'.reports .badTail
      · exact .inr hf
      · obtain ⟨hc, ht⟩ := not_or.mp hf
        exact .inl (hd.rests hc ht)
    · rw [hb]
      exact .inl restAligned_nil
  · obtain ⟨-, hd⟩ := exec_deliver_delivered h
    exact hd.rests hc ht

/-- Settles O49: of the transactions, RESET and the deliveries of replies write the session id. -/
theorem onlyRepliesAndResetChangeTheSessionId : Obligations.OnlyRepliesAndResetChangeTheSessionId := by
  unfold Obligations.OnlyRepliesAndResetChangeTheSessionId
  intro s s' h hne
  obtain ⟨-, hid, -⟩ | ⟨chunk, now, rest, hp, -, hd⟩ | ⟨code, rest, hp, -, -, hid⟩ := step_cases h
  · exact absurd hid hne
  · obtain ⟨f, hem, hr, hid⟩ := hd.devid_ne hne
    exact ⟨_, rest, hp, .inr ⟨chunk, now, f, rfl, hem, hr, hid⟩⟩
  · split at hid
    · rename_i hc
      exact ⟨_, rest, hp, .inl ⟨by rw [hc], hid⟩⟩
    · exact absurd hid hne

/-- Settles O51, by port. -/
theorem outputsOfEachTransaction : Obligations.OutputsOfEachTransaction := by
  unfold Obligations.OutputsOfEachTransaction
  intro t s s' h
  cases t with
  | cmd W =>
    obtain ⟨tx, code, hx, hout⟩ := exec_cmd_next W s
    cases hx.symm.trans h
    refine ⟨_, rfl, fun W' _ => ⟨rfl, rfl, rfl, rfl, rfl, ?_⟩, (fun _ _ he => nomatch he), (fun _ he => nomatch he)⟩
    exact hout.imp_left fun ⟨hc, F, hF, _⟩ => ⟨hc, F, hF⟩
  | deliver chunk now =>
    rw [exec_decode_delivery] at h
    obtain ⟨-, hd⟩ := exec_deliver_delivered h
    obtain ⟨x, hst, hc, hr, hev⟩ := hd.outputs
    exact ⟨x, hst, (fun _ he => nomatch he), fun _ _ _ => ⟨hd.tx, hc, hr, hev⟩, (fun _ he => nomatch he)⟩
  | ctrl code =>
    obtain ⟨rfl, hx⟩ | ⟨rfl, hx⟩ := exec_ctrl_cases code s <;> cases hx.symm.trans h <;>
      exact ⟨_, rfl, (fun _ he => nomatch he), (fun _ _ he => nomatch he),
        fun _ he => Transaction.ctrl.inj he ▸ ⟨rfl, rfl, rfl, rfl, rfl⟩⟩

/-- Settles O44, by the effect of control code 0. -/
theorem clearBufferEmptiesOnlyTheBuffer : Obligations.ClearBufferEmptiesOnlyTheBuffer := by
  unfold Obligations.ClearBufferEmptiesOnlyTheBuffer
  exact fun s => rfl

/-- Settles O45, by the effect of control code 1. -/
theorem resetWritesBothRegisters : Obligations.ResetWritesBothRegisters := by
  unfold Obligations.ResetWritesBothRegisters
  exact fun s => rfl

/-- Settles O46: the reset state is written out, and its buffer is empty. -/
theorem powerUpState : Obligations.PowerUpState := by
  unfold Obligations.PowerUpState
  exact ⟨rfl, rfl, rfl, rfl, rfl, rfl, rfl, ⟨rfl, reset_memory_wf⟩, restAligned_nil, fstate_nil⟩

/-- Settles O54: ten readings make the count, so readings are ordered as counts are. -/
theorem readingsAreExactTenths : Obligations.ReadingsAreExactTenths := by
  unfold Obligations.ReadingsAreExactTenths
  intro raw raw'
  have hlt : (raw.toNat : Rat) ≤ 65535 := by exact_mod_cast Nat.le_of_lt_succ raw.isLt
  refine ⟨reading_mul_ten raw, ?_, ?_, fun h => ?_⟩
  · rw [reading]
    positivity
  · rw [reading]
    gcongr
  · have ht : (raw.toNat : Rat) = raw'.toNat := by rw [← reading_mul_ten, ← reading_mul_ten, h]
    exact BitVec.eq_of_toNat_eq (by exact_mod_cast ht)

end Sys2Proof.Proofs
end
